-- ==== Sys2Proof/Word.lean ====
section
/-! DEFINITION. The two data widths of the machine (00_scope.md R7). -/

namespace Sys2Proof

/-- An 8-bit value: a byte of memory, an 8-bit register, `immed8` (00_scope.md R7, R17). -/
abbrev Byte := BitVec 8

/-- A 16-bit value: a word, a 16-bit register, an offset, a selector value (00_scope.md R7, R18). -/
abbrev Word := BitVec 16

end Sys2Proof
end

