-- ==== Sys2Proof/Config.lean ====
section
/-! DEFINITION. What the spec leaves open: the parameters of 00_scope.md R8 and the free values (`draw`, and what
the environment answers). Each is a constant without a body: nothing can be proved of its value. -/

namespace Sys2Proof

/-- Which offset a divide error (type 0) or a BOUND failure (type 5) pushes (92 D8, 60 R346). -/
inductive FaultReturn where
  /-- the instruction after the failing one (the source's literal text) -/
  | next
  /-- the failing instruction's first byte -/
  | faulting
deriving DecidableEq, Repr, Inhabited

/-- What the byte after offset FFFFH of a segment is (92 D5, 20 R67). -/
inductive SegWrap where
  /-- offset 0000H of the same segment -/
  | wrap
  /-- physical address seg × 16 + 10000H -/
  | linear
deriving DecidableEq, Repr, Inhabited

/-- Whether an 8-bit count is used whole or modulo 32 (92 D10 for shifts, D11 for ENTER's level). -/
inductive CountMask where
  /-- the source's literal loop: the whole byte -/
  | whole
  /-- the low five bits -/
  | low5
deriving DecidableEq, Repr, Inhabited

/-- Order of the single-step interrupt and an external request at one boundary (92 D13, 60 R360 item 5). -/
inductive IntPriority where
  /-- the type 1 sequence first, the request at the next recognition point -/
  | stepFirst
  /-- the external sequence first, then the type 1 sequence -/
  | externalFirst
deriving DecidableEq, Repr, Inhabited

namespace Config

/-- Parameter `faultReturn` of 00_scope.md R8 (log 10). -/
opaque faultReturn : FaultReturn

/-- Parameter `idivMinQuotientTraps` of 00_scope.md R8 (log 11). -/
opaque idivMinQuotientTraps : Bool

/-- Parameter `shiftCountMask` of 00_scope.md R8 (log 12). -/
opaque shiftCountMask : CountMask

/-- Parameter `segWrap` of 00_scope.md R8 (log 13). -/
opaque segWrap : SegWrap

/-- The two readings of ENTER's level in 92 D11 (log 14). -/
opaque enterLevelMask : CountMask

/-- Parameter `escTraps` of 00_scope.md R8 (log 15). -/
opaque escTraps : Bool

/-- Parameter `intPriority` of 00_scope.md R8 (log 16). -/
opaque intPriority : IntPriority

/-- The k-th free value of a run: `draw(n)` of 00_scope.md R12 is its low n bits, or n named bits of it (log 3). -/
opaque draw : Nat → Word

/-- The environment's answer to an I/O or device read for which the state lists no answer, by the count of free
values drawn so far (20_memory.md R70, 92 D14; log 7). -/
opaque envAnswer : Nat → Word

end Config

end Sys2Proof
end

