-- ==== Sys2Proof/Syntax.lean ====
section
/-! DEFINITION. The instructions: one constructor for each rule and mnemonic of spec/opcode_table.json, with operand
forms named as 30_encoding.md R105 names them (`Eb`, `Ev` register-or-memory; `Gb`, `Gv` register; `Ib`, `Iw`, `Is`
immediate). Prefix bytes are constructors of their own: an instruction in memory is its prefixes, then its body. -/

namespace Sys2Proof

/-- The 16-bit general registers, in the order of their numbers (10_state.md R20, R22). -/
inductive Reg16 where
  | ax | cx | dx | bx | sp | bp | si | di
deriving DecidableEq, Repr

/-- The 8-bit registers, in the order of their numbers (10_state.md R21, R22). -/
inductive Reg8 where
  | al | cl | dl | bl | ah | ch | dh | bh
deriving DecidableEq, Repr

/-- The segment registers, in the order of their numbers (10_state.md R22, R34). -/
inductive SReg where
  | es | cs | ss | ds
deriving DecidableEq, Repr

/-- The segment registers that MOV and POP can load: all but CS (10_state.md R35, 90 C22). -/
inductive LoadSReg where
  | es | ss | ds
deriving DecidableEq, Repr

/-- The `r/m` column of the effective-address table (30_encoding.md R100). -/
inductive Base where
  | bxSi | bxDi | bpSi | bpDi | si | di | bp | bx
deriving DecidableEq, Repr

/-- A memory operand's addressing mode (30_encoding.md R98, R100). -/
inductive Mem where
  /-- mod 00, r/m not 110: no displacement -/
  | base (b : Base)
  /-- mod 00, r/m 110: the offset itself -/
  | direct (off : Word)
  /-- mod 01: a sign-extended byte displacement -/
  | disp8 (b : Base) (d : Byte)
  /-- mod 10: a word displacement -/
  | disp16 (b : Base) (d : Word)
deriving DecidableEq, Repr

/-- A register-or-memory operand (30_encoding.md R97, R98): `RM Reg8` is `Eb`, `RM Reg16` is `Ev`. -/
inductive RM (ρ : Type) where
  | reg (r : ρ)
  | mem (m : Mem)
deriving DecidableEq, Repr

/-- The nine encodings of ADD, OR, ADC, SBB, AND, SUB, XOR and CMP (41_arithmetic.md R170). -/
inductive AluForm where
  | ebGb (e : RM Reg8) (g : Reg8)
  | evGv (e : RM Reg16) (g : Reg16)
  | gbEb (g : Reg8) (e : RM Reg8)
  | gvEv (g : Reg16) (e : RM Reg16)
  | alIb (imm : Byte)
  | axIw (imm : Word)
  /-- opcode 80H, or its alias 82H (30_encoding.md R101) -/
  | ebIb (opc82 : Bool) (e : RM Reg8) (imm : Byte)
  | evIw (e : RM Reg16) (imm : Word)
  /-- opcode 83H: the byte is sign-extended -/
  | evIs (e : RM Reg16) (imm : Byte)
deriving DecidableEq, Repr

/-- The forms of TEST (42_logic_shift.md R215). -/
inductive TestForm where
  | ebGb (e : RM Reg8) (g : Reg8)
  | evGv (e : RM Reg16) (g : Reg16)
  | alIb (imm : Byte)
  | axIw (imm : Word)
  | ebIb (e : RM Reg8) (imm : Byte)
  | evIw (e : RM Reg16) (imm : Word)
deriving DecidableEq, Repr

/-- A single register-or-memory operand of either width: `Eb` or `Ev`. -/
inductive RmForm where
  | eb (e : RM Reg8)
  | ev (e : RM Reg16)
deriving DecidableEq, Repr

/-- The forms of INC and DEC (41_arithmetic.md R173, R176). -/
inductive IncForm where
  | reg (r : Reg16)
  | eb (e : RM Reg8)
  | ev (e : RM Reg16)
deriving DecidableEq, Repr

/-- The count operand of the shifts and rotates (42_logic_shift.md R220). -/
inductive Count where
  | one
  | cl
  | imm (n : Byte)
deriving DecidableEq, Repr

/-- The forms of the general MOV (40_data_transfer.md R131). -/
inductive MovForm where
  | ebGb (e : RM Reg8) (g : Reg8)
  | evGv (e : RM Reg16) (g : Reg16)
  | gbEb (g : Reg8) (e : RM Reg8)
  | gvEv (g : Reg16) (e : RM Reg16)
  | alOb (off : Word)
  | axOv (off : Word)
  | obAl (off : Word)
  | ovAx (off : Word)
  | gbIb (g : Reg8) (imm : Byte)
  | gvIw (g : Reg16) (imm : Word)
  | ebIb (e : RM Reg8) (imm : Byte)
  | evIw (e : RM Reg16) (imm : Word)
deriving DecidableEq, Repr

/-- The forms of XCHG (40_data_transfer.md R140). -/
inductive XchgForm where
  | ebGb (e : RM Reg8) (g : Reg8)
  | evGv (e : RM Reg16) (g : Reg16)
  /-- 91H to 97H: XCHG AX, reg16 -/
  | axReg (r : Reg16)
deriving DecidableEq, Repr

/-- An immediate word, written as a word or as a byte to be sign-extended (30_encoding.md R101). -/
inductive ImmForm where
  | iw (imm : Word)
  | is (imm : Byte)
deriving DecidableEq, Repr

/-- The port and width of IN and OUT (40_data_transfer.md R142, R143). -/
inductive PortForm where
  | byteImm (port : Byte)
  | wordImm (port : Byte)
  | byteDx
  | wordDx
deriving DecidableEq, Repr

/-- An unused encoding: one opcode byte, or an opcode byte with the ModRM byte that makes it unused
(30_encoding.md R124). -/
inductive Unused where
  | opcode (b : Byte)
  | group (b modrm : Byte)
deriving DecidableEq, Repr

/-- One item of the instruction stream: a prefix byte, or an instruction with its operands. -/
inductive Instr where
  -- 40_data_transfer.md
  | mov (f : MovForm)
  | movFromSeg (e : RM Reg16) (r : SReg)
  | movToSeg (r : LoadSReg) (e : RM Reg16)
  | pushReg (r : Reg16)
  | pushRm (e : RM Reg16)
  | pushSeg (r : SReg)
  | pushImm (f : ImmForm)
  | popReg (r : Reg16)
  | popRm (e : RM Reg16)
  | popSeg (r : LoadSReg)
  | pusha
  | popa
  | pushf
  | popf
  | xchg (f : XchgForm)
  | xlat
  | inAcc (f : PortForm)
  | outAcc (f : PortForm)
  | lea (g : Reg16) (m : Mem)
  | lds (g : Reg16) (m : Mem)
  | les (g : Reg16) (m : Mem)
  | lahf
  | sahf
  -- 41_arithmetic.md
  | add (f : AluForm)
  | adc (f : AluForm)
  | sub (f : AluForm)
  | sbb (f : AluForm)
  | cmp (f : AluForm)
  | inc (f : IncForm)
  | dec (f : IncForm)
  | neg (f : RmForm)
  | mul (f : RmForm)
  | imul (f : RmForm)
  | imulImm (g : Reg16) (e : RM Reg16) (f : ImmForm)
  | div (f : RmForm)
  | idiv (f : RmForm)
  | aaa
  | aas
  | aam
  | aad
  | daa
  | das
  | cbw
  | cwd
  -- 42_logic_shift.md
  | not (f : RmForm)
  | and (f : AluForm)
  | or (f : AluForm)
  | xor (f : AluForm)
  | test (f : TestForm)
  | shl (f : RmForm) (c : Count)
  | shr (f : RmForm) (c : Count)
  | sar (f : RmForm) (c : Count)
  | rol (f : RmForm) (c : Count)
  | ror (f : RmForm) (c : Count)
  | rcl (f : RmForm) (c : Count)
  | rcr (f : RmForm) (c : Count)
  -- 43_string.md
  | insb
  | insw
  | outsb
  | outsw
  | movsb
  | movsw
  | cmpsb
  | cmpsw
  | stosb
  | stosw
  | lodsb
  | lodsw
  | scasb
  | scasw
  | rep
  | repne
  -- 44_control_transfer.md
  | callNear (rel : Word)
  | callInd (e : RM Reg16)
  | callFar (off seg : Word)
  | callFarInd (m : Mem)
  | retNear (pop : Option Word)
  | retFar (pop : Option Word)
  | jmpShort (rel : Byte)
  | jmpNear (rel : Word)
  | jmpInd (e : RM Reg16)
  | jmpFar (off seg : Word)
  | jmpFarInd (m : Mem)
  | jo (rel : Byte)
  | jno (rel : Byte)
  | jb (rel : Byte)
  /-- a further name of `jb`'s words (30_encoding.md R114): never decoded (log 20) -/
  | jc (rel : Byte)
  | jae (rel : Byte)
  /-- a further name of `jae`'s words (30_encoding.md R114): never decoded (log 20) -/
  | jnc (rel : Byte)
  | je (rel : Byte)
  | jne (rel : Byte)
  | jbe (rel : Byte)
  | ja (rel : Byte)
  | js (rel : Byte)
  | jns (rel : Byte)
  | jp (rel : Byte)
  | jnp (rel : Byte)
  | jl (rel : Byte)
  | jge (rel : Byte)
  | jle (rel : Byte)
  | jg (rel : Byte)
  | jcxz (rel : Byte)
  | loop (rel : Byte)
  | loope (rel : Byte)
  | loopne (rel : Byte)
  | int (n : Byte)
  | int3
  | into
  | iret
  | bound (g : Reg16) (m : Mem)
  | enter (locals : Word) (level : Byte)
  | leave
  -- 45_processor_control.md
  | clc
  | stc
  | cmc
  | cld
  | std
  | cli
  | sti
  | hlt
  | wait
  /-- the six-bit external opcode and the operand (30_encoding.md R111) -/
  | esc (op : BitVec 6) (e : RM Reg16)
  | nop
  | lock
  | segEs
  | segCs
  | segSs
  | segDs
  /-- an unused encoding (30_encoding.md R124) -/
  | unused (u : Unused)
deriving DecidableEq, Repr

/-- Why the bytes at CS:IP are no instruction of the spec. -/
inductive DecodeError where
  /-- two prefixes of one class (30_encoding.md R93, 92 D20) -/
  | repeatedPrefix
  /-- a repeat prefix before anything but a string primitive (30_encoding.md R93, 92 D20) -/
  | repeatBeforeNonString
  /-- D4H or D5H followed by a byte other than 0AH (30_encoding.md R112, 92 D21) -/
  | adjustSecondByte
  /-- the bytes given end inside the instruction -/
  | truncated
deriving DecidableEq, Repr

end Sys2Proof
end

