-- ==== Sys2Proof/WellFormed.lean ====
section
/-! DEFINITION. Which terms of `Instr` an encoding exists for: the checks the types do not make. -/

namespace Sys2Proof

/-- mod 00 with r/m 110 is the direct form, so `[BP]` alone has no encoding (30_encoding.md R98, R100). -/
def Mem.wellFormed : Mem → Bool
  | .base b => b != .bp
  | .direct _ => true
  | .disp8 _ _ => true
  | .disp16 _ _ => true

/-- A register operand is always encodable, a memory operand when its mode is. -/
def RM.wellFormed {ρ : Type} : RM ρ → Bool
  | .reg _ => true
  | .mem m => m.wellFormed

def AluForm.wellFormed : AluForm → Bool
  | .ebGb e _ => e.wellFormed
  | .evGv e _ => e.wellFormed
  | .gbEb _ e => e.wellFormed
  | .gvEv _ e => e.wellFormed
  | .alIb _ => true
  | .axIw _ => true
  | .ebIb _ e _ => e.wellFormed
  | .evIw e _ => e.wellFormed
  | .evIs e _ => e.wellFormed

def TestForm.wellFormed : TestForm → Bool
  | .ebGb e _ => e.wellFormed
  | .evGv e _ => e.wellFormed
  | .alIb _ => true
  | .axIw _ => true
  | .ebIb e _ => e.wellFormed
  | .evIw e _ => e.wellFormed

def RmForm.wellFormed : RmForm → Bool
  | .eb e => e.wellFormed
  | .ev e => e.wellFormed

def IncForm.wellFormed : IncForm → Bool
  | .reg _ => true
  | .eb e => e.wellFormed
  | .ev e => e.wellFormed

def MovForm.wellFormed : MovForm → Bool
  | .ebGb e _ => e.wellFormed
  | .evGv e _ => e.wellFormed
  | .gbEb _ e => e.wellFormed
  | .gvEv _ e => e.wellFormed
  | .alOb _ => true
  | .axOv _ => true
  | .obAl _ => true
  | .ovAx _ => true
  | .gbIb _ _ => true
  | .gvIw _ _ => true
  | .ebIb e _ => e.wellFormed
  | .evIw e _ => e.wellFormed

/-- 90H is NOP: the accumulator form of XCHG has no AX row (30_encoding.md R105, 40 R140). -/
def XchgForm.wellFormed : XchgForm → Bool
  | .ebGb e _ => e.wellFormed
  | .evGv e _ => e.wellFormed
  | .axReg r => r != .ax

/-- The `/digit` of a ModRM byte: its bits 5:3 (30_encoding.md R95, R96). -/
def modrmDigit (m : Byte) : Nat := m.toNat / 8 % 8

/-- The `mod` field of a ModRM byte: its bits 7:6 (30_encoding.md R95). -/
def modrmMod (m : Byte) : Nat := m.toNat / 64

/-- The list of unused encodings, 30_encoding.md R124. -/
def Unused.wellFormed : Unused → Bool
  | .opcode b => [0x0F#8, 0x63#8, 0x64#8, 0x65#8, 0x66#8, 0x67#8, 0xD6#8, 0xF1#8].contains b
  | .group b m =>
    ([0xC0#8, 0xC1#8, 0xD0#8, 0xD1#8, 0xD2#8, 0xD3#8].contains b && modrmDigit m == 6)
    || ([0xF6#8, 0xF7#8].contains b && modrmDigit m == 1)
    || (b == 0xFE#8 && decide (2 ≤ modrmDigit m))
    || (b == 0xFF#8 && (modrmDigit m == 7 || (modrmMod m == 3 && (modrmDigit m == 3 || modrmDigit m == 5))))
    || ([0x8F#8, 0xC6#8, 0xC7#8].contains b && modrmDigit m != 0)
    || (b == 0x8C#8 && decide (4 ≤ modrmDigit m))
    || (b == 0x8E#8 && (modrmDigit m == 1 || decide (4 ≤ modrmDigit m)))
    || ([0x8D#8, 0xC4#8, 0xC5#8, 0x62#8].contains b && modrmMod m == 3)

/-- The terms that an encoding exists for. -/
def Instr.wellFormed : Instr → Bool
  | .mov f => f.wellFormed
  | .movFromSeg e _ => e.wellFormed
  | .movToSeg _ e => e.wellFormed
  | .pushReg _ => true
  | .pushRm e => e.wellFormed
  | .pushSeg _ => true
  | .pushImm _ => true
  | .popReg _ => true
  | .popRm e => e.wellFormed
  | .popSeg _ => true
  | .pusha => true
  | .popa => true
  | .pushf => true
  | .popf => true
  | .xchg f => f.wellFormed
  | .xlat => true
  | .inAcc _ => true
  | .outAcc _ => true
  | .lea _ m => m.wellFormed
  | .lds _ m => m.wellFormed
  | .les _ m => m.wellFormed
  | .lahf => true
  | .sahf => true
  | .add f => f.wellFormed
  | .adc f => f.wellFormed
  | .sub f => f.wellFormed
  | .sbb f => f.wellFormed
  | .cmp f => f.wellFormed
  | .inc f => f.wellFormed
  | .dec f => f.wellFormed
  | .neg f => f.wellFormed
  | .mul f => f.wellFormed
  | .imul f => f.wellFormed
  | .imulImm _ e _ => e.wellFormed
  | .div f => f.wellFormed
  | .idiv f => f.wellFormed
  | .aaa => true
  | .aas => true
  | .aam => true
  | .aad => true
  | .daa => true
  | .das => true
  | .cbw => true
  | .cwd => true
  | .not f => f.wellFormed
  | .and f => f.wellFormed
  | .or f => f.wellFormed
  | .xor f => f.wellFormed
  | .test f => f.wellFormed
  | .shl f _ => f.wellFormed
  | .shr f _ => f.wellFormed
  | .sar f _ => f.wellFormed
  | .rol f _ => f.wellFormed
  | .ror f _ => f.wellFormed
  | .rcl f _ => f.wellFormed
  | .rcr f _ => f.wellFormed
  | .insb => true
  | .insw => true
  | .outsb => true
  | .outsw => true
  | .movsb => true
  | .movsw => true
  | .cmpsb => true
  | .cmpsw => true
  | .stosb => true
  | .stosw => true
  | .lodsb => true
  | .lodsw => true
  | .scasb => true
  | .scasw => true
  | .rep => true
  | .repne => true
  | .callNear _ => true
  | .callInd e => e.wellFormed
  | .callFar _ _ => true
  | .callFarInd m => m.wellFormed
  | .retNear _ => true
  | .retFar _ => true
  | .jmpShort _ => true
  | .jmpNear _ => true
  | .jmpInd e => e.wellFormed
  | .jmpFar _ _ => true
  | .jmpFarInd m => m.wellFormed
  | .jo _ => true
  | .jno _ => true
  | .jb _ => true
  | .jc _ => true
  | .jae _ => true
  | .jnc _ => true
  | .je _ => true
  | .jne _ => true
  | .jbe _ => true
  | .ja _ => true
  | .js _ => true
  | .jns _ => true
  | .jp _ => true
  | .jnp _ => true
  | .jl _ => true
  | .jge _ => true
  | .jle _ => true
  | .jg _ => true
  | .jcxz _ => true
  | .loop _ => true
  | .loope _ => true
  | .loopne _ => true
  | .int _ => true
  | .int3 => true
  | .into => true
  | .iret => true
  | .bound _ m => m.wellFormed
  | .enter _ _ => true
  | .leave => true
  | .clc => true
  | .stc => true
  | .cmc => true
  | .cld => true
  | .std => true
  | .cli => true
  | .sti => true
  | .hlt => true
  | .wait => true
  | .esc _ e => e.wellFormed
  | .nop => true
  | .lock => true
  | .segEs => true
  | .segCs => true
  | .segSs => true
  | .segDs => true
  | .unused u => u.wellFormed

end Sys2Proof
end

