-- ==== Sys2Proof/Decode.lean ====
section
/-! DEFINITION. Decoding bytes to instructions and encoding instructions to bytes (30_encoding.md). Decoding is total:
it answers an item or a named error. Multi-byte fields are little-endian (20_memory.md R62). -/

namespace Sys2Proof

/-! ### Register numbers (10_state.md R22) -/

def Reg16.ofBits (n : BitVec 3) : Reg16 :=
  match n.toNat with
  | 0 => .ax | 1 => .cx | 2 => .dx | 3 => .bx | 4 => .sp | 5 => .bp | 6 => .si | _ => .di

def Reg16.toBits : Reg16 → BitVec 3
  | .ax => 0 | .cx => 1 | .dx => 2 | .bx => 3 | .sp => 4 | .bp => 5 | .si => 6 | .di => 7

def Reg8.ofBits (n : BitVec 3) : Reg8 :=
  match n.toNat with
  | 0 => .al | 1 => .cl | 2 => .dl | 3 => .bl | 4 => .ah | 5 => .ch | 6 => .dh | _ => .bh

def Reg8.toBits : Reg8 → BitVec 3
  | .al => 0 | .cl => 1 | .dl => 2 | .bl => 3 | .ah => 4 | .ch => 5 | .dh => 6 | .bh => 7

def SReg.toBits : SReg → BitVec 3
  | .es => 0 | .cs => 1 | .ss => 2 | .ds => 3

def LoadSReg.toBits : LoadSReg → BitVec 3
  | .es => 0 | .ss => 2 | .ds => 3

/-- The `r/m` field of an addressing mode (30_encoding.md R100). -/
def Base.ofBits (n : BitVec 3) : Base :=
  match n.toNat with
  | 0 => .bxSi | 1 => .bxDi | 2 => .bpSi | 3 => .bpDi | 4 => .si | 5 => .di | 6 => .bp | _ => .bx

def Base.toBits : Base → BitVec 3
  | .bxSi => 0 | .bxDi => 1 | .bpSi => 2 | .bpDi => 3 | .si => 4 | .di => 5 | .bp => 6 | .bx => 7

def RM.map {ρ σ : Type} (f : ρ → σ) : RM ρ → RM σ
  | .reg r => .reg (f r)
  | .mem m => .mem m

/-- A word from its low and high bytes (20_memory.md R62). -/
def wordOf (lo hi : Byte) : Word := hi ++ lo

def loByte (w : Word) : Byte := w.extractLsb' 0 8

def hiByte (w : Word) : Byte := w.extractLsb' 8 8

/-! ### Reading the fields that follow an opcode byte -/

/-- What a decoder answers: an item and the bytes after it, or why there is none. -/
abbrev DecodeResult := Except DecodeError (Instr × List Byte)

/-- The decoder of what follows an opcode byte. -/
abbrev Decoder := List Byte → DecodeResult

/-- The item has no further bytes. -/
def noMore (i : Instr) : Decoder := fun bs => .ok (i, bs)

def withByte (k : Byte → Instr) : Decoder
  | b :: bs => .ok (k b, bs)
  | [] => .error .truncated

def withWord (k : Word → Instr) : Decoder
  | lo :: hi :: bs => .ok (k (wordOf lo hi), bs)
  | _ => .error .truncated

/-- ENTER's `imm16, imm8` (30_encoding.md R101). -/
def withWordByte (k : Word → Byte → Instr) : Decoder
  | lo :: hi :: b :: bs => .ok (k (wordOf lo hi) b, bs)
  | _ => .error .truncated

/-- `ptr16:16`: the offset word, then the segment word (30_encoding.md R101). -/
def withFarPointer (k : Word → Word → Instr) : Decoder
  | o0 :: o1 :: s0 :: s1 :: bs => .ok (k (wordOf o0 o1) (wordOf s0 s1), bs)
  | _ => .error .truncated

/-- The ModRM byte and its displacement: the `reg` field, the r/m operand, the rest (30_encoding.md R95 to R98). -/
def parseModRM : List Byte → Option (BitVec 3 × RM (BitVec 3) × List Byte)
  | [] => none
  | b :: bs =>
    let reg := b.extractLsb' 3 3
    let rm := b.extractLsb' 0 3
    match modrmMod b with
    | 0 =>
      if rm = 6 then
        match bs with
        | lo :: hi :: rest => some (reg, .mem (.direct (wordOf lo hi)), rest)
        | _ => none
      else some (reg, .mem (.base (Base.ofBits rm)), bs)
    | 1 =>
      match bs with
      | d :: rest => some (reg, .mem (.disp8 (Base.ofBits rm) d), rest)
      | _ => none
    | 2 =>
      match bs with
      | lo :: hi :: rest => some (reg, .mem (.disp16 (Base.ofBits rm) (wordOf lo hi)), rest)
      | _ => none
    | _ => some (reg, .reg rm, bs)

/-- A ModRM byte whose `reg` field is a register number or an opcode extension. -/
def withModRM (k : BitVec 3 → RM (BitVec 3) → Decoder) : Decoder := fun bs =>
  match parseModRM bs with
  | some (reg, e, rest) => k reg e rest
  | none => .error .truncated

/-- `Eb,Gb` in either order. -/
def ebGb (k : RM Reg8 → Reg8 → Instr) : Decoder :=
  withModRM fun g e => noMore (k (e.map Reg8.ofBits) (Reg8.ofBits g))

/-- `Ev,Gv` in either order. -/
def evGv (k : RM Reg16 → Reg16 → Instr) : Decoder :=
  withModRM fun g e => noMore (k (e.map Reg16.ofBits) (Reg16.ofBits g))

/-- `Ev,Gv` with an immediate after the displacement. -/
def evGvThen (k : RM Reg16 → Reg16 → Decoder) : Decoder :=
  withModRM fun g e => k (e.map Reg16.ofBits) (Reg16.ofBits g)

/-- An unused encoding that its ModRM byte makes so (30_encoding.md R124): the bytes from the ModRM byte on. -/
def unusedGroup (op : Byte) : Decoder
  | m :: bs => .ok (.unused (.group op m), bs)
  | [] => .error .truncated

/-- `Gv,M`: mod = 11 is unused (30_encoding.md R110). -/
def gvMem (op : Byte) (k : Reg16 → Mem → Instr) : Decoder := fun bs =>
  withModRM (fun g e rest =>
    match e with
    | .mem m => .ok (k (Reg16.ofBits g) m, rest)
    | .reg _ => unusedGroup op bs) bs

/-- A group opcode: the `reg` field selects one of eight decoders, `none` where it is unused
(30_encoding.md R106 to R110). An unused encoding ends with its ModRM byte. -/
def group (op : Byte) (members : List (Option (RM (BitVec 3) → Decoder))) : Decoder
  | [] => .error .truncated
  | m :: bs =>
    match members.getD (modrmDigit m) none with
    | some k => withModRM (fun _ e => k e) (m :: bs)
    | none => unusedGroup op (m :: bs)

/-- A group member on `Eb` with nothing after it. -/
def eb (k : RM Reg8 → Instr) : Option (RM (BitVec 3) → Decoder) :=
  some fun e => noMore (k (e.map Reg8.ofBits))

/-- A group member on `Ev` with nothing after it. -/
def ev (k : RM Reg16 → Instr) : Option (RM (BitVec 3) → Decoder) :=
  some fun e => noMore (k (e.map Reg16.ofBits))

def ebIb (k : RM Reg8 → Byte → Instr) : Option (RM (BitVec 3) → Decoder) :=
  some fun e => withByte (k (e.map Reg8.ofBits))

def evIb (k : RM Reg16 → Byte → Instr) : Option (RM (BitVec 3) → Decoder) :=
  some fun e => withByte (k (e.map Reg16.ofBits))

def evIw (k : RM Reg16 → Word → Instr) : Option (RM (BitVec 3) → Decoder) :=
  some fun e => withWord (k (e.map Reg16.ofBits))

/-- A far indirect member of group 5: mod = 11 is unused (30_encoding.md R109). -/
def farMem (op : Byte) (k : Mem → Instr) (bs : List Byte) : Option (RM (BitVec 3) → Decoder) :=
  some fun e rest =>
    match e with
    | .mem m => .ok (k m, rest)
    | .reg _ => unusedGroup op bs

/-! ### The opcode map (30_encoding.md R105) -/

/-- The six forms of a two-operand instruction (30_encoding.md R104). -/
def aluSix (k : AluForm → Instr) : List Decoder :=
  [ebGb fun e g => k (.ebGb e g), evGv fun e g => k (.evGv e g),
   ebGb fun e g => k (.gbEb g e), evGv fun e g => k (.gvEv g e),
   withByte fun b => k (.alIb b), withWord fun w => k (.axIw w)]

/-- Group 1 in its `/0` to `/7` order (30_encoding.md R106). -/
def aluByDigit : List (AluForm → Instr) :=
  [.add, .or, .adc, .sbb, .and, .sub, .xor, .cmp]

def grp1Eb (op : Byte) (opc82 : Bool) : Decoder :=
  group op (aluByDigit.map fun k => ebIb fun e i => k (.ebIb opc82 e i))

def grp1Iw : Decoder := group 0x81 (aluByDigit.map fun k => evIw fun e i => k (.evIw e i))

def grp1Is : Decoder := group 0x83 (aluByDigit.map fun k => evIb fun e i => k (.evIs e i))

/-- Group 2 in its `/0` to `/7` order, `/6` unused (30_encoding.md R107). -/
def shiftByDigit : List (Option (RmForm → Count → Instr)) :=
  [some .rol, some .ror, some .rcl, some .rcr, some .shl, some .shr, none, some .sar]

def grp2Eb (op : Byte) (c : Count) : Decoder :=
  group op (shiftByDigit.map fun o => o.bind fun k => eb fun e => k (.eb e) c)

def grp2Ev (op : Byte) (c : Count) : Decoder :=
  group op (shiftByDigit.map fun o => o.bind fun k => ev fun e => k (.ev e) c)

def grp2EbIb : Decoder :=
  group 0xC0 (shiftByDigit.map fun o => o.bind fun k => ebIb fun e n => k (.eb e) (.imm n))

def grp2EvIb : Decoder :=
  group 0xC1 (shiftByDigit.map fun o => o.bind fun k => evIb fun e n => k (.ev e) (.imm n))

/-- Group 3 on bytes (30_encoding.md R108). -/
def grp3Eb : Decoder := group 0xF6
  [ebIb fun e i => .test (.ebIb e i), none, eb fun e => .not (.eb e), eb fun e => .neg (.eb e),
   eb fun e => .mul (.eb e), eb fun e => .imul (.eb e), eb fun e => .div (.eb e), eb fun e => .idiv (.eb e)]

/-- Group 3 on words (30_encoding.md R108). -/
def grp3Ev : Decoder := group 0xF7
  [evIw fun e i => .test (.evIw e i), none, ev fun e => .not (.ev e), ev fun e => .neg (.ev e),
   ev fun e => .mul (.ev e), ev fun e => .imul (.ev e), ev fun e => .div (.ev e), ev fun e => .idiv (.ev e)]

/-- Group 4 (30_encoding.md R109). -/
def grp4 : Decoder := group 0xFE [eb fun e => .inc (.eb e), eb fun e => .dec (.eb e)]

/-- Group 5 (30_encoding.md R109). -/
def grp5 : Decoder := fun bs => group 0xFF
  [ev fun e => .inc (.ev e), ev fun e => .dec (.ev e), ev .callInd, farMem 0xFF .callFarInd bs,
   ev .jmpInd, farMem 0xFF .jmpFarInd bs, ev .pushRm, none] bs

/-- 8CH: the `reg` field is a segment register number, 4 to 7 unused (30_encoding.md R110). -/
def grp8C : Decoder := group 0x8C
  [ev fun e => .movFromSeg e .es, ev fun e => .movFromSeg e .cs,
   ev fun e => .movFromSeg e .ss, ev fun e => .movFromSeg e .ds]

/-- 8EH: as 8CH with CS unused too (30_encoding.md R110). -/
def grp8E : Decoder := group 0x8E
  [ev fun e => .movToSeg .es e, none, ev fun e => .movToSeg .ss e, ev fun e => .movToSeg .ds e]

/-- ESC: the external opcode is the opcode's low three bits, then the `reg` field (30_encoding.md R111). -/
def escOf (hi : BitVec 3) : Decoder :=
  withModRM fun g e => noMore (.esc (hi ++ g) (e.map Reg16.ofBits))

/-- AAM and AAD: the second byte is 0AH (30_encoding.md R112, 92 D21). -/
def second0A (i : Instr) : Decoder
  | b :: bs => if b = 0x0A then .ok (i, bs) else .error .adjustSecondByte
  | [] => .error .truncated

def unusedOpcode (b : Byte) : Decoder := noMore (.unused (.opcode b))

/-- The eight entries of an opcode that holds a 16-bit register number. -/
def reg16Row (k : Reg16 → Instr) : List Decoder :=
  [noMore (k .ax), noMore (k .cx), noMore (k .dx), noMore (k .bx),
   noMore (k .sp), noMore (k .bp), noMore (k .si), noMore (k .di)]

def row0 : List Decoder :=
  aluSix .add ++ [noMore (.pushSeg .es), noMore (.popSeg .es)]
  ++ aluSix .or ++ [noMore (.pushSeg .cs), unusedOpcode 0x0F]

def row1 : List Decoder :=
  aluSix .adc ++ [noMore (.pushSeg .ss), noMore (.popSeg .ss)]
  ++ aluSix .sbb ++ [noMore (.pushSeg .ds), noMore (.popSeg .ds)]

def row2 : List Decoder :=
  aluSix .and ++ [noMore .segEs, noMore .daa] ++ aluSix .sub ++ [noMore .segCs, noMore .das]

def row3 : List Decoder :=
  aluSix .xor ++ [noMore .segSs, noMore .aaa] ++ aluSix .cmp ++ [noMore .segDs, noMore .aas]

def row4 : List Decoder := reg16Row (fun r => .inc (.reg r)) ++ reg16Row (fun r => .dec (.reg r))

def row5 : List Decoder := reg16Row .pushReg ++ reg16Row .popReg

/-- Row 6xH. DESIGN CHOICE (log 31): 68H and 6AH are PUSH immediate, 69H and 6BH IMUL with an immediate, all four of
which the spec lets a model refuse (40_data_transfer.md R135, 41_arithmetic.md R181). -/
def row6 : List Decoder :=
  [noMore .pusha, noMore .popa, gvMem 0x62 .bound, unusedOpcode 0x63,
   unusedOpcode 0x64, unusedOpcode 0x65, unusedOpcode 0x66, unusedOpcode 0x67]
  ++ [withWord fun w => .pushImm (.iw w), evGvThen fun e g => withWord fun w => .imulImm g e (.iw w),
      withByte fun b => .pushImm (.is b), evGvThen fun e g => withByte fun b => .imulImm g e (.is b),
      noMore .insb, noMore .insw, noMore .outsb, noMore .outsw]

def row7 : List Decoder :=
  [withByte .jo, withByte .jno, withByte .jb, withByte .jae, withByte .je, withByte .jne, withByte .jbe, withByte .ja]
  ++ [withByte .js, withByte .jns, withByte .jp, withByte .jnp, withByte .jl, withByte .jge, withByte .jle, withByte .jg]

def row8 : List Decoder :=
  [grp1Eb 0x80 false, grp1Iw, grp1Eb 0x82 true, grp1Is,
   ebGb fun e g => .test (.ebGb e g), evGv fun e g => .test (.evGv e g),
   ebGb fun e g => .xchg (.ebGb e g), evGv fun e g => .xchg (.evGv e g)]
  ++ [ebGb fun e g => .mov (.ebGb e g), evGv fun e g => .mov (.evGv e g),
      ebGb fun e g => .mov (.gbEb g e), evGv fun e g => .mov (.gvEv g e),
      grp8C, gvMem 0x8D .lea, grp8E, group 0x8F [ev .popRm]]

def row9 : List Decoder :=
  [noMore .nop, noMore (.xchg (.axReg .cx)), noMore (.xchg (.axReg .dx)), noMore (.xchg (.axReg .bx)),
   noMore (.xchg (.axReg .sp)), noMore (.xchg (.axReg .bp)), noMore (.xchg (.axReg .si)), noMore (.xchg (.axReg .di))]
  ++ [noMore .cbw, noMore .cwd, withFarPointer .callFar, noMore .wait,
      noMore .pushf, noMore .popf, noMore .sahf, noMore .lahf]

def rowA : List Decoder :=
  [withWord fun a => .mov (.alOb a), withWord fun a => .mov (.axOv a),
   withWord fun a => .mov (.obAl a), withWord fun a => .mov (.ovAx a),
   noMore .movsb, noMore .movsw, noMore .cmpsb, noMore .cmpsw]
  ++ [withByte fun i => .test (.alIb i), withWord fun i => .test (.axIw i),
      noMore .stosb, noMore .stosw, noMore .lodsb, noMore .lodsw, noMore .scasb, noMore .scasw]

def rowB : List Decoder :=
  [withByte fun i => .mov (.gbIb .al i), withByte fun i => .mov (.gbIb .cl i),
   withByte fun i => .mov (.gbIb .dl i), withByte fun i => .mov (.gbIb .bl i),
   withByte fun i => .mov (.gbIb .ah i), withByte fun i => .mov (.gbIb .ch i),
   withByte fun i => .mov (.gbIb .dh i), withByte fun i => .mov (.gbIb .bh i)]
  ++ [withWord fun i => .mov (.gvIw .ax i), withWord fun i => .mov (.gvIw .cx i),
      withWord fun i => .mov (.gvIw .dx i), withWord fun i => .mov (.gvIw .bx i),
      withWord fun i => .mov (.gvIw .sp i), withWord fun i => .mov (.gvIw .bp i),
      withWord fun i => .mov (.gvIw .si i), withWord fun i => .mov (.gvIw .di i)]

def rowC : List Decoder :=
  [grp2EbIb, grp2EvIb, withWord fun n => .retNear (some n), noMore (.retNear none),
   gvMem 0xC4 .les, gvMem 0xC5 .lds,
   group 0xC6 [ebIb fun e i => .mov (.ebIb e i)], group 0xC7 [evIw fun e i => .mov (.evIw e i)]]
  ++ [withWordByte .enter, noMore .leave, withWord fun n => .retFar (some n), noMore (.retFar none),
      noMore .int3, withByte .int, noMore .into, noMore .iret]

def rowD : List Decoder :=
  [grp2Eb 0xD0 .one, grp2Ev 0xD1 .one, grp2Eb 0xD2 .cl, grp2Ev 0xD3 .cl,
   second0A .aam, second0A .aad, unusedOpcode 0xD6, noMore .xlat]
  ++ [escOf 0, escOf 1, escOf 2, escOf 3, escOf 4, escOf 5, escOf 6, escOf 7]

def rowE : List Decoder :=
  [withByte .loopne, withByte .loope, withByte .loop, withByte .jcxz,
   withByte fun p => .inAcc (.byteImm p), withByte fun p => .inAcc (.wordImm p),
   withByte fun p => .outAcc (.byteImm p), withByte fun p => .outAcc (.wordImm p)]
  ++ [withWord .callNear, withWord .jmpNear, withFarPointer .jmpFar, withByte .jmpShort,
      noMore (.inAcc .byteDx), noMore (.inAcc .wordDx), noMore (.outAcc .byteDx), noMore (.outAcc .wordDx)]

def rowF : List Decoder :=
  [noMore .lock, unusedOpcode 0xF1, noMore .repne, noMore .rep, noMore .hlt, noMore .cmc, grp3Eb, grp3Ev]
  ++ [noMore .clc, noMore .stc, noMore .cli, noMore .sti, noMore .cld, noMore .std, grp4, grp5]

def opcodeMap : List (List Decoder) :=
  [row0, row1, row2, row3, row4, row5, row6, row7] ++ [row8, row9, rowA, rowB, rowC, rowD, rowE, rowF]

/-- The decoder of what follows the opcode byte `b`. -/
def opcodeDecoder (b : Byte) : Decoder :=
  (opcodeMap.getD (b.toNat / 16) []).getD (b.toNat % 16) (fun _ => .error .truncated)

/-- One item, a prefix byte or an instruction, from the front of the bytes. -/
def decodeItem : Decoder
  | b :: bs => opcodeDecoder b bs
  | [] => .error .truncated

/-! ### Prefixes and whole instructions -/

/-- The three classes of 30_encoding.md R93. -/
inductive PrefixClass where
  | segment | repetition | lock
deriving DecidableEq, Repr

/-- The prefix bytes (30_encoding.md R92). -/
def prefixClass (b : Byte) : Option PrefixClass :=
  if b = 0x26 ∨ b = 0x2E ∨ b = 0x36 ∨ b = 0x3E then some .segment
  else if b = 0xF2 ∨ b = 0xF3 then some .repetition
  else if b = 0xF0 then some .lock
  else none

/-- The opcodes a repeat prefix is admitted before (30_encoding.md R93). -/
def isStringOpcode (b : Byte) : Bool :=
  (decide (0x6C ≤ b.toNat) && decide (b.toNat ≤ 0x6F))
  || (decide (0xA4 ≤ b.toNat) && decide (b.toNat ≤ 0xA7))
  || (decide (0xAA ≤ b.toNat) && decide (b.toNat ≤ 0xAF))

/-- The prefixes and the body at the front of the bytes, in order, with the bytes after them. `seen` are the classes
already met: at most one prefix of each (30_encoding.md R93, 92 D20). -/
def decodeItems (seen : List PrefixClass) : List Byte → Except DecodeError (List Instr × List Byte)
  | [] => .error .truncated
  | b :: bs =>
    match prefixClass b with
    | some c =>
      if seen.contains c then .error .repeatedPrefix
      else
        match decodeItem [b], decodeItems (c :: seen) bs with
        | .ok (p, _), .ok (items, rest) => .ok (p :: items, rest)
        | .error e, _ => .error e
        | _, .error e => .error e
    | none =>
      if seen.contains .repetition && !isStringOpcode b then .error .repeatBeforeNonString
      else
        match decodeItem (b :: bs) with
        | .ok (i, rest) => .ok ([i], rest)
        | .error e => .error e

/-- A whole instruction: its prefixes then its body, and its length in bytes (30_encoding.md R90, R103). -/
structure Decoded where
  items : List Instr
  length : Nat
deriving DecidableEq, Repr

def decodeInstruction (bs : List Byte) : Except DecodeError Decoded :=
  match decodeItems [] bs with
  | .ok (items, rest) => .ok { items := items, length := bs.length - rest.length }
  | .error e => .error e

/-- The longest instruction: three prefixes and six bytes (30_encoding.md R103, 92 D24). -/
def maxInstructionBytes : Nat := 9

/-! ### The opcode table's numbering -/

/-- The bytes of a table word. The table numbers an instruction's first two bytes as one 16-bit value with the opcode
byte in the high 8 bits (30_encoding.md R126), so a 16-bit word lies in memory high byte first (log 21). -/
def tableBytes (nbits w : Nat) : List Byte :=
  if nbits ≤ 8 then [BitVec.ofNat 8 w]
  else
    [BitVec.ofNat 8 (w / 256), BitVec.ofNat 8 w]
    ++ (if nbits ≤ 16 then []
        else if nbits ≤ 24 then [BitVec.ofNat 8 (w / 65536)]
        else [BitVec.ofNat 8 (w / 16777216), BitVec.ofNat 8 (w / 65536)])

/-- The table word's bytes with every later byte of the longest instruction zero. -/
def tableInstructionBytes (nbits w : Nat) : List Byte :=
  (tableBytes nbits w ++ List.replicate maxInstructionBytes 0).take maxInstructionBytes

/-- The item the decoder reads from a word of spec/opcode_table.json. -/
def decodeTableWord (nbits w : Nat) : Option Instr :=
  match decodeItem (tableInstructionBytes nbits w) with
  | .ok (i, _) => some i
  | .error _ => none

/-! ### Encoding -/

/-- A ModRM byte from its three fields (30_encoding.md R95). -/
def modrmByte (md : BitVec 2) (reg rm : BitVec 3) : Byte := md ++ reg ++ rm

/-- The ModRM byte and displacement of a memory operand (30_encoding.md R98). -/
def encodeMem (reg : BitVec 3) : Mem → List Byte
  | .base b => [modrmByte 0 reg b.toBits]
  | .direct w => [modrmByte 0 reg 6, loByte w, hiByte w]
  | .disp8 b d => [modrmByte 1 reg b.toBits, d]
  | .disp16 b w => [modrmByte 2 reg b.toBits, loByte w, hiByte w]

/-- The ModRM byte and displacement of a register-or-memory operand (30_encoding.md R97, R98). -/
def encodeRM (reg : BitVec 3) : RM (BitVec 3) → List Byte
  | .reg r => [modrmByte 3 reg r]
  | .mem m => encodeMem reg m

def encodeEb (reg : BitVec 3) (e : RM Reg8) : List Byte := encodeRM reg (e.map Reg8.toBits)

def encodeEv (reg : BitVec 3) (e : RM Reg16) : List Byte := encodeRM reg (e.map Reg16.toBits)

def encodeWord (w : Word) : List Byte := [loByte w, hiByte w]

/-- An opcode byte whose low three bits are a field (30_encoding.md R94). -/
def opcodeWith (hi : BitVec 5) (lo : BitVec 3) : Byte := hi ++ lo

/-- A two-operand instruction of opcode base 8n and group 1 digit n (30_encoding.md R104, R106). -/
def encodeAlu (n : BitVec 3) : AluForm → List Byte
  | .ebGb e g => opcodeWith (0#2 ++ n) 0 :: encodeEb g.toBits e
  | .evGv e g => opcodeWith (0#2 ++ n) 1 :: encodeEv g.toBits e
  | .gbEb g e => opcodeWith (0#2 ++ n) 2 :: encodeEb g.toBits e
  | .gvEv g e => opcodeWith (0#2 ++ n) 3 :: encodeEv g.toBits e
  | .alIb i => [opcodeWith (0#2 ++ n) 4, i]
  | .axIw i => opcodeWith (0#2 ++ n) 5 :: encodeWord i
  | .ebIb opc82 e i => (if opc82 then 0x82 else 0x80) :: (encodeEb n e ++ [i])
  | .evIw e i => 0x81 :: (encodeEv n e ++ encodeWord i)
  | .evIs e i => 0x83 :: (encodeEv n e ++ [i])

/-- A group member on `Eb` or `Ev`: the even opcode and the one after it. -/
def encodeRmForm (opc : Byte) (digit : BitVec 3) : RmForm → List Byte
  | .eb e => opc :: encodeEb digit e
  | .ev e => (opc + 1) :: encodeEv digit e

/-- A shift or rotate of group 2 (30_encoding.md R107). -/
def encodeShift (digit : BitVec 3) (f : RmForm) : Count → List Byte
  | .one => encodeRmForm 0xD0 digit f
  | .cl => encodeRmForm 0xD2 digit f
  | .imm n => encodeRmForm 0xC0 digit f ++ [n]

/-- INC (digit 0, 40H) and DEC (digit 1, 48H). -/
def encodeInc (digit : BitVec 3) : IncForm → List Byte
  | .reg r => [opcodeWith (0b01#2 ++ digit) r.toBits]
  | .eb e => 0xFE :: encodeEb digit e
  | .ev e => 0xFF :: encodeEv digit e

def encodePort (imm dx : Byte) : PortForm → List Byte
  | .byteImm p => [imm, p]
  | .wordImm p => [imm + 1, p]
  | .byteDx => [dx]
  | .wordDx => [dx + 1]

def encodeMov : MovForm → List Byte
  | .ebGb e g => 0x88 :: encodeEb g.toBits e
  | .evGv e g => 0x89 :: encodeEv g.toBits e
  | .gbEb g e => 0x8A :: encodeEb g.toBits e
  | .gvEv g e => 0x8B :: encodeEv g.toBits e
  | .alOb a => 0xA0 :: encodeWord a
  | .axOv a => 0xA1 :: encodeWord a
  | .obAl a => 0xA2 :: encodeWord a
  | .ovAx a => 0xA3 :: encodeWord a
  | .gbIb g i => [opcodeWith 0b10110 g.toBits, i]
  | .gvIw g i => opcodeWith 0b10111 g.toBits :: encodeWord i
  | .ebIb e i => 0xC6 :: (encodeEb 0 e ++ [i])
  | .evIw e i => 0xC7 :: (encodeEv 0 e ++ encodeWord i)

def encodeTest : TestForm → List Byte
  | .ebGb e g => 0x84 :: encodeEb g.toBits e
  | .evGv e g => 0x85 :: encodeEv g.toBits e
  | .alIb i => [0xA8, i]
  | .axIw i => 0xA9 :: encodeWord i
  | .ebIb e i => 0xF6 :: (encodeEb 0 e ++ [i])
  | .evIw e i => 0xF7 :: (encodeEv 0 e ++ encodeWord i)

/-- A RET: the opcode without a pop value, the opcode before it with one (44_control_transfer.md R265, R266). -/
def encodeRet (opc : Byte) : Option Word → List Byte
  | none => [opc]
  | some n => (opc - 1) :: encodeWord n

/-- The bytes of one item (30_encoding.md R105; the `Encoding` line of each instruction's rule). -/
def encode : Instr → List Byte
  | .mov f => encodeMov f
  | .movFromSeg e r => 0x8C :: encodeEv r.toBits e
  | .movToSeg r e => 0x8E :: encodeEv r.toBits e
  | .pushReg r => [opcodeWith 0b01010 r.toBits]
  | .pushRm e => 0xFF :: encodeEv 6 e
  | .pushSeg r => [opcodeWith (0#2 ++ r.toBits) 6]
  | .pushImm (.iw i) => 0x68 :: encodeWord i
  | .pushImm (.is i) => [0x6A, i]
  | .popReg r => [opcodeWith 0b01011 r.toBits]
  | .popRm e => 0x8F :: encodeEv 0 e
  | .popSeg r => [opcodeWith (0#2 ++ r.toBits) 7]
  | .pusha => [0x60]
  | .popa => [0x61]
  | .pushf => [0x9C]
  | .popf => [0x9D]
  | .xchg (.ebGb e g) => 0x86 :: encodeEb g.toBits e
  | .xchg (.evGv e g) => 0x87 :: encodeEv g.toBits e
  | .xchg (.axReg r) => [opcodeWith 0b10010 r.toBits]
  | .xlat => [0xD7]
  | .inAcc f => encodePort 0xE4 0xEC f
  | .outAcc f => encodePort 0xE6 0xEE f
  | .lea g m => 0x8D :: encodeMem g.toBits m
  | .lds g m => 0xC5 :: encodeMem g.toBits m
  | .les g m => 0xC4 :: encodeMem g.toBits m
  | .lahf => [0x9F]
  | .sahf => [0x9E]
  | .add f => encodeAlu 0 f
  | .adc f => encodeAlu 2 f
  | .sub f => encodeAlu 5 f
  | .sbb f => encodeAlu 3 f
  | .cmp f => encodeAlu 7 f
  | .inc f => encodeInc 0 f
  | .dec f => encodeInc 1 f
  | .neg f => encodeRmForm 0xF6 3 f
  | .mul f => encodeRmForm 0xF6 4 f
  | .imul f => encodeRmForm 0xF6 5 f
  | .imulImm g e (.iw i) => 0x69 :: (encodeEv g.toBits e ++ encodeWord i)
  | .imulImm g e (.is i) => 0x6B :: (encodeEv g.toBits e ++ [i])
  | .div f => encodeRmForm 0xF6 6 f
  | .idiv f => encodeRmForm 0xF6 7 f
  | .aaa => [0x37]
  | .aas => [0x3F]
  | .aam => [0xD4, 0x0A]
  | .aad => [0xD5, 0x0A]
  | .daa => [0x27]
  | .das => [0x2F]
  | .cbw => [0x98]
  | .cwd => [0x99]
  | .not f => encodeRmForm 0xF6 2 f
  | .and f => encodeAlu 4 f
  | .or f => encodeAlu 1 f
  | .xor f => encodeAlu 6 f
  | .test f => encodeTest f
  | .shl f c => encodeShift 4 f c
  | .shr f c => encodeShift 5 f c
  | .sar f c => encodeShift 7 f c
  | .rol f c => encodeShift 0 f c
  | .ror f c => encodeShift 1 f c
  | .rcl f c => encodeShift 2 f c
  | .rcr f c => encodeShift 3 f c
  | .insb => [0x6C]
  | .insw => [0x6D]
  | .outsb => [0x6E]
  | .outsw => [0x6F]
  | .movsb => [0xA4]
  | .movsw => [0xA5]
  | .cmpsb => [0xA6]
  | .cmpsw => [0xA7]
  | .stosb => [0xAA]
  | .stosw => [0xAB]
  | .lodsb => [0xAC]
  | .lodsw => [0xAD]
  | .scasb => [0xAE]
  | .scasw => [0xAF]
  | .rep => [0xF3]
  | .repne => [0xF2]
  | .callNear rel => 0xE8 :: encodeWord rel
  | .callInd e => 0xFF :: encodeEv 2 e
  | .callFar off seg => 0x9A :: (encodeWord off ++ encodeWord seg)
  | .callFarInd m => 0xFF :: encodeMem 3 m
  | .retNear p => encodeRet 0xC3 p
  | .retFar p => encodeRet 0xCB p
  | .jmpShort rel => [0xEB, rel]
  | .jmpNear rel => 0xE9 :: encodeWord rel
  | .jmpInd e => 0xFF :: encodeEv 4 e
  | .jmpFar off seg => 0xEA :: (encodeWord off ++ encodeWord seg)
  | .jmpFarInd m => 0xFF :: encodeMem 5 m
  | .jo rel => [0x70, rel]
  | .jno rel => [0x71, rel]
  | .jb rel => [0x72, rel]
  | .jc rel => [0x72, rel]
  | .jae rel => [0x73, rel]
  | .jnc rel => [0x73, rel]
  | .je rel => [0x74, rel]
  | .jne rel => [0x75, rel]
  | .jbe rel => [0x76, rel]
  | .ja rel => [0x77, rel]
  | .js rel => [0x78, rel]
  | .jns rel => [0x79, rel]
  | .jp rel => [0x7A, rel]
  | .jnp rel => [0x7B, rel]
  | .jl rel => [0x7C, rel]
  | .jge rel => [0x7D, rel]
  | .jle rel => [0x7E, rel]
  | .jg rel => [0x7F, rel]
  | .jcxz rel => [0xE3, rel]
  | .loop rel => [0xE2, rel]
  | .loope rel => [0xE1, rel]
  | .loopne rel => [0xE0, rel]
  | .int n => [0xCD, n]
  | .int3 => [0xCC]
  | .into => [0xCE]
  | .iret => [0xCF]
  | .bound g m => 0x62 :: encodeMem g.toBits m
  | .enter locals level => 0xC8 :: (encodeWord locals ++ [level])
  | .leave => [0xC9]
  | .clc => [0xF8]
  | .stc => [0xF9]
  | .cmc => [0xF5]
  | .cld => [0xFC]
  | .std => [0xFD]
  | .cli => [0xFA]
  | .sti => [0xFB]
  | .hlt => [0xF4]
  | .wait => [0x9B]
  | .esc op e => opcodeWith 0b11011 (op.extractLsb' 3 3) :: encodeEv (op.extractLsb' 0 3) e
  | .nop => [0x90]
  | .lock => [0xF0]
  | .segEs => [0x26]
  | .segCs => [0x2E]
  | .segSs => [0x36]
  | .segDs => [0x3E]
  | .unused (.opcode b) => [b]
  | .unused (.group b m) => [b, m]

/-- The spelling the decoder gives an instruction that has two (30_encoding.md R114): JC's words are JB's, JNC's are
JAE's (log 20). -/
def canonical (i : Instr) : Instr :=
  match i with
  | .jc rel => .jb rel
  | .jnc rel => .jae rel
  | other => other

end Sys2Proof
end

