-- ==== Sys2Proof/Machine/State.lean ====
section
/-! DEFINITION. The state of the machine as plain data, what it holds after reset, and the reasons a step stops
(10_state.md). Every register is stored once; the 8-bit registers are views of AX, CX, DX and BX (R21). -/

namespace Sys2Proof.Machine

/-- The eight general registers (10_state.md R20). -/
structure Gpr where
  ax : Word
  cx : Word
  dx : Word
  bx : Word
  sp : Word
  bp : Word
  si : Word
  di : Word
deriving DecidableEq, Repr

/-- The four segment registers (10_state.md R34). -/
structure Segs where
  es : Word
  cs : Word
  ss : Word
  ds : Word
deriving DecidableEq, Repr

/-- The nine flags (10_state.md R29). The FLAGS word of R31 is `Flags.toWord`; its reserved bits are no state (R32).
`ifl` is IF and `ofl` is OF. -/
structure Flags where
  cf : Bool
  pf : Bool
  af : Bool
  zf : Bool
  sf : Bool
  tf : Bool
  ifl : Bool
  df : Bool
  ofl : Bool
deriving DecidableEq, Repr

/-- What the one-instruction inhibit holds off at the next boundary (10_state.md R39, 60_exceptions.md R359). -/
inductive Inhibit where
  | none
  /-- set by STI: the maskable interrupt -/
  | maskable
  /-- set by a load of a segment register: the maskable interrupt, NMI and the single-step interrupt -/
  | all
deriving DecidableEq, Repr

/-- A repeat prefix byte (43_string.md R241). -/
inductive Rep where
  /-- F3H: REP, REPE, REPZ -/
  | repe
  /-- F2H: REPNE, REPNZ -/
  | repne
deriving DecidableEq, Repr

/-- What the prefixes of the current instruction have set, and the offset I of its first byte. No state between
instructions: every step leaves it at `Latches.idle` (10_state.md R39; log 23). -/
structure Latches where
  override : Option SReg
  rep : Option Rep
  lock : Bool
  start : Word
deriving DecidableEq, Repr

/-- The latches between instructions. -/
def Latches.idle : Latches := { override := none, rep := none, lock := false, start := 0 }

/-- The 2^20 bytes of memory (20_memory.md R60): the bytes that are not zero, by strictly rising physical address. An
unlisted address reads 0 (log 2). -/
abbrev Memory := List Host.Cell

/-- A range of physical addresses that is not plain memory (20_memory.md R73, R79; log 8). -/
structure Window where
  base : Nat
  size : Nat
deriving DecidableEq, Repr

/-- An access that the environment sees: every I/O access, and every byte access inside a device window
(20_memory.md R70, R79). -/
inductive Event where
  | inByte (port : Word) (v : Byte)
  | inWord (port : Word) (v : Word)
  | outByte (port : Word) (v : Byte)
  | outWord (port : Word) (v : Word)
  | deviceRead (addr : Nat) (v : Byte)
  | deviceWrite (addr : Nat) (v : Byte)
deriving DecidableEq, Repr

/-- What the environment does at one instruction boundary (00_scope.md R19, 92 D13; log 5). -/
structure Inputs where
  /-- a rising edge on NMI (60_exceptions.md R354) -/
  nmi : Bool
  /-- the INTR line from now on, with its type byte (60_exceptions.md R355) -/
  intr : Option Byte
  /-- the test line from now on (45_processor_control.md R328) -/
  test : Bool
  /-- the RESET line from now on (70_reset_and_hazards.md R380) -/
  reset : Bool
deriving DecidableEq, Repr

/-- The environment as the core sees it (10_state.md R39, 20_memory.md R70; logs 5, 6, 7). -/
structure Env where
  /-- the NMI latch -/
  nmiPending : Bool
  /-- the INTR line: the type of the request that the environment holds -/
  intrLine : Option Byte
  /-- the test line: true is active, the state that lets WAIT finish -/
  testLine : Bool
  /-- the RESET line: true is active -/
  resetLine : Bool
  /-- what the environment does at the coming boundaries; no change once the list is empty -/
  inputs : List Inputs
  /-- the answers to the coming I/O and device reads; free values once the list is empty -/
  answers : List Word
  /-- the accesses so far, newest first -/
  events : List Event
deriving DecidableEq, Repr

/-- The machine. -/
structure State where
  gpr : Gpr
  seg : Segs
  /-- the instruction pointer (10_state.md R25, R26) -/
  ip : Word
  flags : Flags
  /-- the halt state (45_processor_control.md R326) -/
  halted : Bool
  inhibit : Inhibit
  latches : Latches
  mem : Memory
  /-- the addresses stored to since the last control transfer, newest first: the bytes that the prefetch queue may
  hold stale (20_memory.md R80; log 18) -/
  stored : List Nat
  /-- the device windows: the complement of `ramRegion` (20_memory.md R73; log 8) -/
  devices : List Window
  env : Env
  /-- the model's own field: how many free values have been drawn (00_scope.md R12 `draw`; log 3) -/
  draws : Nat
deriving DecidableEq, Repr

/-- Why the machine stops with a fault. -/
inductive Fault where
  /-- An encoding of the unused list is executed (30_encoding.md R124, 92 D15): raised by the meaning of `unused`.
  Safe: the spec calls it a fault of the model and gives no effect. -/
  | unusedEncoding
deriving DecidableEq, Repr

/-- Why a step is refused. -/
inductive Refusal where
  /-- The instruction has no meaning in the model yet: raised by its arm of `exec`. Safe. -/
  | notModelled (mnemonic : String)
  /-- The bytes at CS:IP are an instruction that the spec refuses (92 D20, D21): raised by the step, which decodes
  them. Safe. -/
  | undecodable (e : DecodeError)
  /-- A byte of the instruction was stored to since the last control transfer (20_memory.md R80, 92 D19): raised by
  the step. Safe. -/
  | staleCode
deriving DecidableEq, Repr

/-- The general registers at reset: the spec gives none; zero is the model's choice (log 1). -/
def Gpr.reset : Gpr := { ax := 0, cx := 0, dx := 0, bx := 0, sp := 0, bp := 0, si := 0, di := 0 }

/-- The segment registers at reset (10_state.md R40). -/
def Segs.reset : Segs := { es := 0x0000, cs := 0xFFFF, ss := 0x0000, ds := 0x0000 }

/-- The flags at reset (10_state.md R40). -/
def Flags.clear : Flags :=
  { cf := false, pf := false, af := false, zf := false, sf := false,
    tf := false, ifl := false, df := false, ofl := false }

/-- The environment at reset: no NMI pending (70_reset_and_hazards.md R381); quiet lines, an active test line and
nothing planned are the model's choice (logs 5, 6, 7). -/
def Env.reset : Env :=
  { nmiPending := false, intrLine := none, testLine := true, resetLine := false,
    inputs := [], answers := [], events := [] }

/-- The machine right after reset (10_state.md R40, 70_reset_and_hazards.md R381). -/
def State.reset : State :=
  { gpr := Gpr.reset, seg := Segs.reset, ip := 0x0000, flags := Flags.clear, halted := false, inhibit := .none,
    latches := Latches.idle, mem := [], stored := [], devices := [], env := Env.reset, draws := 0 }

end Sys2Proof.Machine
end

