-- ==== Sys2Proof/Machine/Flags.lean ====
section
/-! DEFINITION. The FLAGS word (10_state.md R31, R32) and every flag computation of the spec (00_scope.md R13,
42_logic_shift.md R210, R220 to R227), at either operand width. -/

namespace Sys2Proof.Machine

/-! ### The FLAGS word -/

/-- The reserved bits of the FLAGS word: 15 to 12, 5, 3 and 1 (10_state.md R31). -/
def flagsReservedMask : Word := 0xF02A

/-- The flags in their places, the reserved bits 0 (10_state.md R31). -/
def Flags.image (f : Flags) : Word :=
  BitVec.ofNat 16
    (f.cf.toNat + f.pf.toNat * 0x4 + f.af.toNat * 0x10 + f.zf.toNat * 0x40 + f.sf.toNat * 0x80
      + f.tf.toNat * 0x100 + f.ifl.toNat * 0x200 + f.df.toNat * 0x400 + f.ofl.toNat * 0x800)

/-- The FLAGS word as stored: each reserved bit is that bit of the draw `d` (10_state.md R32). -/
def Flags.toWord (f : Flags) (d : Word) : Word := f.image ||| (d &&& flagsReservedMask)

/-- The nine flags loaded from a word, its reserved bits ignored (40_data_transfer.md R150). -/
def Flags.ofWord (t : Word) : Flags :=
  { cf := t.getLsbD 0, pf := t.getLsbD 2, af := t.getLsbD 4, zf := t.getLsbD 6, sf := t.getLsbD 7,
    tf := t.getLsbD 8, ifl := t.getLsbD 9, df := t.getLsbD 10, ofl := t.getLsbD 11 }

/-- LAHF's byte: bits 5, 3 and 1 are those of the draw `d` (40_data_transfer.md R147). -/
def Flags.lowByte (f : Flags) (d : Word) : Byte := loByte (f.toWord d)

/-- SAHF: SF, ZF, AF, PF and CF from bits 7, 6, 4, 2 and 0 (40_data_transfer.md R148). -/
def Flags.withLowByte (f : Flags) (b : Byte) : Flags :=
  { f with sf := b.getLsbD 7, zf := b.getLsbD 6, af := b.getLsbD 4, pf := b.getLsbD 2, cf := b.getLsbD 0 }

/-! ### Undefined flags: each takes its own bit of a drawn word (92 D7, log 4) -/

/-- AF undefined. -/
def Flags.undefAf (f : Flags) (d : Word) : Flags := { f with af := d.getLsbD 4 }

/-- OF undefined. -/
def Flags.undefOf (f : Flags) (d : Word) : Flags := { f with ofl := d.getLsbD 11 }

/-- SF, ZF and PF undefined. -/
def Flags.undefSzp (f : Flags) (d : Word) : Flags :=
  { f with sf := d.getLsbD 7, zf := d.getLsbD 6, pf := d.getLsbD 2 }

/-- CF undefined. -/
def Flags.undefCf (f : Flags) (d : Word) : Flags := { f with cf := d.getLsbD 0 }

/-- All six status flags undefined (41_arithmetic.md R182). -/
def Flags.undefStatus (f : Flags) (d : Word) : Flags :=
  (((f.undefAf d).undefOf d).undefSzp d).undefCf d

/-! ### Results -/

/-- PF: the low byte has an even number of 1 bits (00_scope.md R13). -/
def parityEven {w : Nat} (r : BitVec w) : Bool :=
  !(r.getLsbD 0 ^^ r.getLsbD 1 ^^ r.getLsbD 2 ^^ r.getLsbD 3 ^^ r.getLsbD 4 ^^ r.getLsbD 5 ^^ r.getLsbD 6 ^^ r.getLsbD 7)

/-- `setSZP(r)` of 00_scope.md R13. -/
def Flags.setSzp {w : Nat} (f : Flags) (r : BitVec w) : Flags :=
  { f with sf := r.msb, zf := decide (r = 0), pf := parityEven r }

/-- An exact signed result that the width cannot hold (00_scope.md R13, 10_state.md R29 on OF). -/
def signedOutside (w : Nat) (x : Int) : Bool :=
  decide (x < -(2 ^ (w - 1) : Int)) || decide ((2 ^ (w - 1) : Int) - 1 < x)

/-- A signed or unsigned carry-in as a number. -/
def carryInt (c : Bool) : Int := if c then 1 else 0

/-! ### Addition and subtraction (00_scope.md R13) -/

/-- `(a + b + c) mod 2^w`. -/
def addResult {w : Nat} (a b : BitVec w) (c : Bool) : BitVec w := BitVec.ofNat w (a.toNat + b.toNat + c.toNat)

/-- `(a - b - c) mod 2^w`. -/
def subResult {w : Nat} (a b : BitVec w) (c : Bool) : BitVec w := a - b - BitVec.ofNat w c.toNat

/-- AF, OF, SF, ZF and PF of an addition: INC's flags (41_arithmetic.md R173). -/
def Flags.addKeepCf {w : Nat} (f : Flags) (a b : BitVec w) (c : Bool) : Flags :=
  { f.setSzp (addResult a b c) with
    af := decide (16 ≤ a.toNat % 16 + b.toNat % 16 + c.toNat)
    ofl := signedOutside w (a.toInt + b.toInt + carryInt c) }

/-- The six status flags of an addition. -/
def Flags.add {w : Nat} (f : Flags) (a b : BitVec w) (c : Bool) : Flags :=
  { f.addKeepCf a b c with cf := decide (2 ^ w ≤ a.toNat + b.toNat + c.toNat) }

/-- AF, OF, SF, ZF and PF of a subtraction: DEC's flags (41_arithmetic.md R176). -/
def Flags.subKeepCf {w : Nat} (f : Flags) (a b : BitVec w) (c : Bool) : Flags :=
  { f.setSzp (subResult a b c) with
    af := decide (a.toNat % 16 < b.toNat % 16 + c.toNat)
    ofl := signedOutside w (a.toInt - b.toInt - carryInt c) }

/-- The six status flags of a subtraction. -/
def Flags.sub {w : Nat} (f : Flags) (a b : BitVec w) (c : Bool) : Flags :=
  { f.subKeepCf a b c with cf := decide (a.toNat < b.toNat + c.toNat) }

/-! ### Logic (42_logic_shift.md R210) -/

/-- The flags of AND, OR, XOR and TEST: CF = OF = 0, AF undefined, the rest from the result. -/
def Flags.logic {w : Nat} (f : Flags) (r : BitVec w) (d : Word) : Flags :=
  { (f.setSzp r).undefAf d with cf := false, ofl := false }

/-! ### Shifts and rotates: the closed forms of 42_logic_shift.md R221 to R227, for a count c >= 1 -/

/-- A shifted or rotated value and the carry it leaves. -/
structure Shifted (w : Nat) where
  value : BitVec w
  carry : Bool
deriving DecidableEq, Repr

/-- SHL (R221). -/
def shlBy {w : Nat} (a : BitVec w) (c : Nat) : Shifted w :=
  { value := a <<< c, carry := decide (c ≤ w) && a.getLsbD (w - c) }

/-- SHR (R222). -/
def shrBy {w : Nat} (a : BitVec w) (c : Nat) : Shifted w :=
  { value := a >>> c, carry := decide (c ≤ w) && a.getLsbD (c - 1) }

/-- SAR (R223). -/
def sarBy {w : Nat} (a : BitVec w) (c : Nat) : Shifted w :=
  { value := a.sshiftRight c, carry := if c ≤ w then a.getLsbD (c - 1) else a.msb }

/-- Rotation left by k, at most the width: `((a × 2^k) mod 2^w) or floor(a / 2^(w - k))`. -/
def rotl {w : Nat} (a : BitVec w) (k : Nat) : BitVec w := (a <<< k) ||| (a >>> (w - k))

/-- ROL (R224). -/
def rolBy {w : Nat} (a : BitVec w) (c : Nat) : Shifted w :=
  let r := rotl a (c % w)
  { value := r, carry := r.getLsbD 0 }

/-- ROR (R225). -/
def rorBy {w : Nat} (a : BitVec w) (c : Nat) : Shifted w :=
  let r := rotl a (w - c % w)
  { value := r, carry := r.msb }

/-- `X = CF : a` of R226. -/
def withCarry {w : Nat} (cf : Bool) (a : BitVec w) : BitVec (w + 1) := a.cons cf

/-- RCL (R226). -/
def rclBy {w : Nat} (cf : Bool) (a : BitVec w) (c : Nat) : Shifted w :=
  let x := rotl (withCarry cf a) (c % (w + 1))
  { value := x.setWidth w, carry := x.msb }

/-- RCR (R227). -/
def rcrBy {w : Nat} (cf : Bool) (a : BitVec w) (c : Nat) : Shifted w :=
  let x := rotl (withCarry cf a) (w + 1 - c % (w + 1))
  { value := x.setWidth w, carry := x.msb }

/-- The two highest bits of a result differ: OF of SHR, ROR and RCR by 1 (R222, R225, R227). -/
def topBitsDiffer {w : Nat} (r : BitVec w) : Bool := r.msb ^^ r.getLsbD (w - 2)

/-- The sign of a result differs from the carry: OF of SHL, ROL and RCL by 1 (R221, R224, R226). -/
def signDiffersFrom {w : Nat} (r : BitVec w) (cf : Bool) : Bool := r.msb ^^ cf

/-- The flags of a shift: for a count of 0 every status flag but CF undefined (R220 (c)); else CF and SF, ZF, PF by the
result, AF undefined, and OF as given. -/
def Flags.shift {w : Nat} (f : Flags) (c : Nat) (r : Shifted w) (o : Bool) (d : Word) : Flags :=
  if c = 0 then ((f.undefAf d).undefOf d).undefSzp d
  else { (f.setSzp r.value).undefAf d with cf := r.carry, ofl := o }

/-- The flags of a rotate: for a count of 0 only OF undefined (R220 (c)); else CF, and OF as given. -/
def Flags.rotate {w : Nat} (f : Flags) (c : Nat) (r : Shifted w) (o : Bool) (d : Word) : Flags :=
  if c = 0 then f.undefOf d else { f with cf := r.carry, ofl := o }

/-- OF where it is defined for a count of 1 only (R220 (a)). -/
def definedForOne (c : Nat) (o : Bool) (d : Word) : Bool := if c = 1 then o else d.getLsbD 11

/-! ### Multiplication (41_arithmetic.md R179 to R181) -/

/-- The flags of MUL and IMUL: CF = OF as given, SF, ZF, AF and PF undefined. -/
def Flags.multiply (f : Flags) (o : Bool) (d : Word) : Flags :=
  { (f.undefAf d).undefSzp d with cf := o, ofl := o }

/-! ### The conditions of 44_control_transfer.md R280 -/

/-- JBE: CF = 1 or ZF = 1. -/
def Flags.belowOrEqual (f : Flags) : Bool := f.cf || f.zf

/-- JL: SF differs from OF. -/
def Flags.less (f : Flags) : Bool := f.sf != f.ofl

/-- JLE: SF differs from OF, or ZF = 1. -/
def Flags.lessOrEqual (f : Flags) : Bool := (f.sf != f.ofl) || f.zf

end Sys2Proof.Machine
end

