-- ==== Sys2Proof/Machine/Ops.lean ====
section
/-! DEFINITION. The shared operations: registers, memory, I/O, free values, the stack, control transfers, taking an
interrupt and returning from one. -/

namespace Sys2Proof.Machine

/-! ### Field updates -/

def State.setGpr (s : State) (g : Gpr) : State := { s with gpr := g }

def State.setSegs (s : State) (g : Segs) : State := { s with seg := g }

def State.setIp (s : State) (v : Word) : State := { s with ip := v }

def State.setFlags (s : State) (f : Flags) : State := { s with flags := f }

def State.setHalted (s : State) (b : Bool) : State := { s with halted := b }

def State.setInhibit (s : State) (i : Inhibit) : State := { s with inhibit := i }

def State.setLatches (s : State) (l : Latches) : State := { s with latches := l }

def State.setEnv (s : State) (e : Env) : State := { s with env := e }

/-- A control transfer empties the prefetch queue (20_memory.md R80). -/
def State.flushQueue (s : State) : State := { s with stored := [] }

/-! ### Registers (10_state.md R20, R21, R34) -/

def Gpr.get (g : Gpr) : Reg16 → Word
  | .ax => g.ax | .cx => g.cx | .dx => g.dx | .bx => g.bx
  | .sp => g.sp | .bp => g.bp | .si => g.si | .di => g.di

def Gpr.set (g : Gpr) (r : Reg16) (v : Word) : Gpr :=
  match r with
  | .ax => { g with ax := v } | .cx => { g with cx := v } | .dx => { g with dx := v } | .bx => { g with bx := v }
  | .sp => { g with sp := v } | .bp => { g with bp := v } | .si => { g with si := v } | .di => { g with di := v }

/-- The 16-bit register that an 8-bit register is half of (10_state.md R21). -/
def wholeOf : Reg8 → Reg16
  | .al => .ax | .ah => .ax | .cl => .cx | .ch => .cx | .dl => .dx | .dh => .dx | .bl => .bx | .bh => .bx

/-- AH, CH, DH and BH are high halves (10_state.md R21). -/
def isHigh : Reg8 → Bool
  | .al => false | .cl => false | .dl => false | .bl => false | .ah => true | .ch => true | .dh => true | .bh => true

def Gpr.get8 (g : Gpr) (r : Reg8) : Byte :=
  if isHigh r then hiByte (g.get (wholeOf r)) else loByte (g.get (wholeOf r))

/-- A write to an 8-bit register changes only that half (10_state.md R21). -/
def Gpr.set8 (g : Gpr) (r : Reg8) (v : Byte) : Gpr :=
  g.set (wholeOf r)
    (if isHigh r then wordOf (loByte (g.get (wholeOf r))) v else wordOf v (hiByte (g.get (wholeOf r))))

def Segs.get (g : Segs) : SReg → Word
  | .es => g.es | .cs => g.cs | .ss => g.ss | .ds => g.ds

/-- MOV, POP, LDS and LES load ES, SS or DS (10_state.md R35). -/
def Segs.load (g : Segs) (r : LoadSReg) (v : Word) : Segs :=
  match r with
  | .es => { g with es := v } | .ss => { g with ss := v } | .ds => { g with ds := v }

def State.reg16 (s : State) (r : Reg16) : Word := s.gpr.get r

def State.reg8 (s : State) (r : Reg8) : Byte := s.gpr.get8 r

def State.sreg (s : State) (r : SReg) : Word := s.seg.get r

def State.setReg16 (s : State) (r : Reg16) (v : Word) : State := s.setGpr (s.gpr.set r v)

def State.setReg8 (s : State) (r : Reg8) (v : Byte) : State := s.setGpr (s.gpr.set8 r v)

def State.loadSReg (s : State) (r : LoadSReg) (v : Word) : State := s.setSegs (s.seg.load r v)

def State.setCs (s : State) (v : Word) : State := s.setSegs { s.seg with cs := v }

/-! ### Free values (00_scope.md R12 `draw`, 92 D7; log 3) -/

/-- A fresh free value. -/
def State.draw (s : State) : Word × State := (Config.draw s.draws, { s with draws := s.draws + 1 })

/-! ### Memory (20_memory.md R60 to R64) -/

/-- What a byte that no entry lists reads as (log 2). -/
def unlistedByte : Byte := 0

/-- The byte at a physical address. -/
def Memory.read : Memory → Nat → Byte
  | [], _ => unlistedByte
  | (k, v) :: rest, a => if k = a then v else Memory.read rest a

/-- Without the entry of an address. -/
def Memory.erase : Memory → Nat → Memory
  | [], _ => []
  | (k, v) :: rest, a => if k = a then Memory.erase rest a else (k, v) :: Memory.erase rest a

/-- With an entry for an address that has none, in its place. -/
def Memory.insert : Memory → Nat → Byte → Memory
  | [], a, b => [(a, b)]
  | (k, v) :: rest, a, b => if a < k then (a, b) :: (k, v) :: rest else (k, v) :: Memory.insert rest a b

/-- Store a byte, keeping the canonical form: addresses rise, and no entry holds what an unlisted address reads as. -/
def Memory.write (m : Memory) (a : Nat) (b : Byte) : Memory :=
  if b = unlistedByte then Memory.erase m a else Memory.insert (Memory.erase m a) a b

/-- 2^20 bytes (20_memory.md R60). -/
def memorySize : Nat := 1048576

/-- The canonical form above a bound: addresses from `lo` on, strictly rising, inside the memory, no unlisted value. -/
def Memory.wfFrom (lo : Nat) : Memory → Bool
  | [] => true
  | (a, b) :: rest =>
    decide (lo ≤ a) && decide (a < memorySize) && decide (b ≠ unlistedByte) && Memory.wfFrom (a + 1) rest

/-- The canonical form: equal memories are equal lists. -/
def Memory.wf (m : Memory) : Bool := Memory.wfFrom 0 m

/-- `phys(seg, off)` (20_memory.md R61). -/
def phys (seg off : Word) : Nat := (seg.toNat * 16 + off.toNat) % memorySize

/-- The physical address of the byte `k` places after offset `off`: the offset `(off + k) mod 2^16` (20_memory.md R63),
but past offset FFFFH what `segWrap` says (R67, 92 D5; log 13). -/
def byteAddr (seg off : Word) (k : Nat) : Nat :=
  if off.toNat + k < 65536 then (seg.toNat * 16 + (off.toNat + k)) % memorySize
  else
    match Config.segWrap with
    | .wrap => (seg.toNat * 16 + (off.toNat + k) % 65536) % memorySize
    | .linear => (seg.toNat * 16 + (off.toNat + k)) % memorySize

def Window.contains (w : Window) (a : Nat) : Bool := decide (w.base ≤ a) && decide (a < w.base + w.size)

/-- The address is device memory (20_memory.md R79). -/
def State.isDevice (s : State) (a : Nat) : Bool := s.devices.any fun w => w.contains a

def State.logEvent (s : State) (e : Event) : State := s.setEnv { s.env with events := e :: s.env.events }

/-- The environment's next answer (20_memory.md R70, 92 D14): the next one listed, or else a fresh free value
(log 7). -/
def State.nextAnswer (s : State) : Word × State :=
  match s.env.answers with
  | v :: rest => (v, s.setEnv { s.env with answers := rest })
  | [] => (Config.envAnswer s.draws, { s with draws := s.draws + 1 })

/-- A byte at a physical address: of plain memory, or of a device, whose value the environment supplies and whose access
is an event (20_memory.md R63, R79). -/
def State.readByte (s : State) (a : Nat) : Byte × State :=
  if s.isDevice a then
    (loByte s.nextAnswer.1, s.nextAnswer.2.logEvent (.deviceRead a (loByte s.nextAnswer.1)))
  else (Memory.read s.mem a, s)

/-- Store a byte at a physical address (20_memory.md R64, R79). -/
def State.writeByte (s : State) (a : Nat) (b : Byte) : State :=
  if s.isDevice a then s.logEvent (.deviceWrite a b)
  else { s with mem := Memory.write s.mem a b, stored := a :: s.stored }

/-- `MemRead(seg, off, 1)` (20_memory.md R63). -/
def State.memRead8 (s : State) (seg off : Word) : Byte × State := s.readByte (byteAddr seg off 0)

/-- `MemWrite(seg, off, 1, v)` (20_memory.md R64). -/
def State.memWrite8 (s : State) (seg off : Word) (v : Byte) : State := s.writeByte (byteAddr seg off 0) v

/-- `MemRead(seg, off, 2)`: two byte reads, low byte first (20_memory.md R63, R67). -/
def State.memRead16 (s : State) (seg off : Word) : Word × State :=
  let lo := s.readByte (byteAddr seg off 0)
  let hi := lo.2.readByte (byteAddr seg off 1)
  (wordOf lo.1 hi.1, hi.2)

/-- `MemWrite(seg, off, 2, v)`: two byte writes, low byte first (20_memory.md R64, R67). -/
def State.memWrite16 (s : State) (seg off : Word) (v : Word) : State :=
  (s.writeByte (byteAddr seg off 0) (loByte v)).writeByte (byteAddr seg off 1) (hiByte v)

/-- The bytes at offsets `off`, `off + 1`, … as an instruction fetch reads them, `n` of them from the `k`-th on. -/
def State.fetchBytes (s : State) (seg off : Word) : Nat → Nat → List Byte × State
  | _, 0 => ([], s)
  | k, n + 1 =>
    let b := s.readByte (byteAddr seg off k)
    let r := b.2.fetchBytes seg off (k + 1) n
    (b.1 :: r.1, r.2)

/-! ### I/O (20_memory.md R70) -/

/-- `IoRead(port, 1)`. -/
def State.ioRead8 (s : State) (port : Word) : Byte × State :=
  (loByte s.nextAnswer.1, s.nextAnswer.2.logEvent (.inByte port (loByte s.nextAnswer.1)))

/-- `IoRead(port, 2)`: the low byte from `port`, the high byte from `port + 1` modulo 2^16. DESIGN CHOICE (log 34): at port
FFFFH, where 40_data_transfer.md R142 lets a model refuse it, the read runs. -/
def State.ioRead16 (s : State) (port : Word) : Word × State :=
  (s.nextAnswer.1, s.nextAnswer.2.logEvent (.inWord port s.nextAnswer.1))

/-- `IoWrite(port, 1, v)`. -/
def State.ioWrite8 (s : State) (port : Word) (v : Byte) : State := s.logEvent (.outByte port v)

/-- `IoWrite(port, 2, v)`. -/
def State.ioWrite16 (s : State) (port : Word) (v : Word) : State := s.logEvent (.outWord port v)

/-! ### The stack (20_memory.md R82) -/

/-- `push16(v)`: SP falls by 2, then the word is written at SS:SP. -/
def State.push16 (s : State) (v : Word) : State :=
  (s.setReg16 .sp (s.gpr.sp - 2)).memWrite16 s.seg.ss (s.gpr.sp - 2) v

/-- `pop16()`: the word at SS:SP is read, then SP rises by 2. -/
def State.pop16 (s : State) : Word × State :=
  let r := s.memRead16 s.seg.ss s.gpr.sp
  (r.1, r.2.setReg16 .sp (r.2.gpr.sp + 2))

/-! ### Control transfers (44_control_transfer.md R260) -/

/-- An intra-segment transfer. -/
def State.jumpTo (s : State) (target : Word) : State := (s.setIp target).flushQueue

/-- An inter-segment transfer. -/
def State.farJumpTo (s : State) (seg off : Word) : State := ((s.setCs seg).setIp off).flushQueue

/-- A byte sign-extended to a word (00_scope.md R12 `sext_16`). -/
def sext16 (b : Byte) : Word := b.signExtend 16

/-- A byte zero-extended to a word (00_scope.md R12 `zext_16`). -/
def zext16 (b : Byte) : Word := b.setWidth 16

/-- A conditional transfer to `(IP + sext_16(rel8)) mod 2^16` (44_control_transfer.md R280). -/
def State.jumpIf (s : State) (cond : Bool) (rel : Byte) : State :=
  if cond then s.jumpTo (s.ip + sext16 rel) else s

/-! ### Taking an interrupt and returning from one -/

/-- The FLAGS word with its reserved bits drawn (10_state.md R32). -/
def State.flagsWord (s : State) : Word × State := (s.flags.toWord s.draw.1, s.draw.2)

/-- `push16(FLAGS)` (40_data_transfer.md R149). -/
def State.pushFlags (s : State) : State := s.flagsWord.2.push16 s.flagsWord.1

/-- `IF <- 0; TF <- 0`. -/
def Flags.maskInterrupts (f : Flags) : Flags := { f with ifl := false, tf := false }

/-- The offset in segment 0 of the interrupt pointer's first word (60_exceptions.md R347). -/
def vectorOffset (n : Byte) : Word := zext16 n * 4

/-- The interrupt sequence for type `n` with return offset `ret`, in the order of 60_exceptions.md R345 (also where the
frame overlaps the pointer: log 17). -/
def State.interrupt (s : State) (n : Byte) (ret : Word) : State :=
  let s1 := s.pushFlags
  let s2 := s1.setFlags s1.flags.maskInterrupts
  let s3 := s2.push16 s.seg.cs
  let cs := s3.memRead16 0 (vectorOffset n + 2)
  let s4 := cs.2.push16 ret
  let ip := s4.memRead16 0 (vectorOffset n)
  ((ip.2.farJumpTo cs.1 ip.1).setHalted false).setInhibit .none

/-- IRET: IP, CS and the flags are popped (44_control_transfer.md R306). -/
def State.interruptReturn (s : State) : State :=
  let ip := s.pop16
  let cs := ip.2.pop16
  let fl := cs.2.pop16
  (fl.2.setFlags (Flags.ofWord fl.1)).farJumpTo cs.1 ip.1

/-- The return offset of a type 0 or type 5 interrupt that an instruction raises (60_exceptions.md R346, 92 D8;
log 10): IP is then the next instruction's offset. -/
def State.faultOffset (s : State) : Word :=
  match Config.faultReturn with
  | .next => s.ip
  | .faulting => s.latches.start

end Sys2Proof.Machine
end

