-- ==== Sys2Proof/Machine/Operands.lean ====
section
/-! DEFINITION. Operands: effective addresses, segments with their overrides, and reading and writing a
register-or-memory operand at either width (30_encoding.md R95 to R101, 40_data_transfer.md R130). -/

namespace Sys2Proof.Machine

/-- The base of an addressing mode (30_encoding.md R100). -/
def State.baseValue (s : State) : Base → Word
  | .bxSi => s.gpr.bx + s.gpr.si
  | .bxDi => s.gpr.bx + s.gpr.di
  | .bpSi => s.gpr.bp + s.gpr.si
  | .bpDi => s.gpr.bp + s.gpr.di
  | .si => s.gpr.si
  | .di => s.gpr.di
  | .bp => s.gpr.bp
  | .bx => s.gpr.bx

/-- The effective address (30_encoding.md R100). -/
def State.ea (s : State) : Mem → Word
  | .base b => s.baseValue b
  | .direct off => off
  | .disp8 b d => s.baseValue b + sext16 d
  | .disp16 b d => s.baseValue b + d

/-- The default segment of a base: SS for the rows that use BP (30_encoding.md R100). -/
def baseSegment : Base → SReg
  | .bpSi => .ss
  | .bpDi => .ss
  | .bp => .ss
  | .bxSi => .ds
  | .bxDi => .ds
  | .si => .ds
  | .di => .ds
  | .bx => .ds

/-- The default segment of an addressing mode (30_encoding.md R100). -/
def defaultSegment : Mem → SReg
  | .base b => baseSegment b
  | .direct _ => .ds
  | .disp8 b _ => baseSegment b
  | .disp16 b _ => baseSegment b

/-- The segment of an overridable access (20_memory.md R72, 45_processor_control.md R336). -/
def State.overridden (s : State) (d : SReg) : Word := s.sreg (s.latches.override.getD d)

/-- `seg_rm` (40_data_transfer.md R130). -/
def State.segRm (s : State) (m : Mem) : Word := s.overridden (defaultSegment m)

/-- `srcseg` (43_string.md R240). -/
def State.srcSeg (s : State) : Word := s.overridden .ds

/-- Where an operand is: its address is computed once, from the registers at the start of the instruction
(40_data_transfer.md R130). -/
inductive Loc (ρ : Type) where
  | reg (r : ρ)
  | mem (seg off : Word)
deriving DecidableEq, Repr

def State.loc {ρ : Type} (s : State) : RM ρ → Loc ρ
  | .reg r => .reg r
  | .mem m => .mem (s.segRm m) (s.ea m)

/-- `rm_read(8)` (40_data_transfer.md R130). -/
def State.read8 (s : State) : Loc Reg8 → Byte × State
  | .reg r => (s.reg8 r, s)
  | .mem seg off => s.memRead8 seg off

/-- `rm_write(8, v)`. -/
def State.write8 (s : State) (l : Loc Reg8) (v : Byte) : State :=
  match l with
  | .reg r => s.setReg8 r v
  | .mem seg off => s.memWrite8 seg off v

/-- `rm_read(16)`. -/
def State.read16 (s : State) : Loc Reg16 → Word × State
  | .reg r => (s.reg16 r, s)
  | .mem seg off => s.memRead16 seg off

/-- `rm_write(16, v)`. -/
def State.write16 (s : State) (l : Loc Reg16) (v : Word) : State :=
  match l with
  | .reg r => s.setReg16 r v
  | .mem seg off => s.memWrite16 seg off v

/-- A `mem32` operand: the word at EA, then the word at EA + 2 (20_memory.md R65). -/
def State.readPointer (s : State) (m : Mem) : (Word × Word) × State :=
  let lo := s.memRead16 (s.segRm m) (s.ea m)
  let hi := lo.2.memRead16 (s.segRm m) (s.ea m + 2)
  ((lo.1, hi.1), hi.2)

/-- An immediate word, or an immediate byte sign-extended (30_encoding.md R101). -/
def immValue : ImmForm → Word
  | .iw imm => imm
  | .is imm => sext16 imm

/-- The port number of IN and OUT (40_data_transfer.md R142, R143). -/
def State.port (s : State) : PortForm → Word
  | .byteImm p => zext16 p
  | .wordImm p => zext16 p
  | .byteDx => s.gpr.dx
  | .wordDx => s.gpr.dx

/-- The port forms that move a word. -/
def portIsWord : PortForm → Bool
  | .byteImm _ => false
  | .wordImm _ => true
  | .byteDx => false
  | .wordDx => true

/-! ### Operations on operands

An operation takes the destination value, the source value and the flags, at either width, and answers the result and
the new flags. -/

/-- A two-operand operation. -/
abbrev BinaryOp := (w : Nat) → BitVec w → BitVec w → Flags → BitVec w × Flags

/-- A one-operand operation. -/
abbrev UnaryOp := (w : Nat) → BitVec w → Flags → BitVec w × Flags

/-- The result and the flags of `op` written: the flags, then the 8-bit destination. -/
def State.put8 (s : State) (l : Loc Reg8) (r : Byte × Flags) : State := (s.setFlags r.2).write8 l r.1

def State.put16 (s : State) (l : Loc Reg16) (r : Word × Flags) : State := (s.setFlags r.2).write16 l r.1

/-- The nine encodings of a two-operand instruction that writes its destination (41_arithmetic.md R170). Both operands
are read before anything is written. -/
def State.binary (s : State) (op : BinaryOp) : AluForm → State
  | .ebGb e g =>
    let a := s.read8 (s.loc e)
    a.2.put8 (s.loc e) (op 8 a.1 (s.reg8 g) s.flags)
  | .evGv e g =>
    let a := s.read16 (s.loc e)
    a.2.put16 (s.loc e) (op 16 a.1 (s.reg16 g) s.flags)
  | .gbEb g e =>
    let b := s.read8 (s.loc e)
    b.2.put8 (.reg g) (op 8 (s.reg8 g) b.1 s.flags)
  | .gvEv g e =>
    let b := s.read16 (s.loc e)
    b.2.put16 (.reg g) (op 16 (s.reg16 g) b.1 s.flags)
  | .alIb imm => s.put8 (.reg .al) (op 8 (s.reg8 .al) imm s.flags)
  | .axIw imm => s.put16 (.reg .ax) (op 16 (s.reg16 .ax) imm s.flags)
  | .ebIb _ e imm =>
    let a := s.read8 (s.loc e)
    a.2.put8 (s.loc e) (op 8 a.1 imm s.flags)
  | .evIw e imm =>
    let a := s.read16 (s.loc e)
    a.2.put16 (s.loc e) (op 16 a.1 imm s.flags)
  | .evIs e imm =>
    let a := s.read16 (s.loc e)
    a.2.put16 (s.loc e) (op 16 a.1 (sext16 imm) s.flags)

/-- The nine encodings of a two-operand instruction that writes the flags only (41_arithmetic.md R178). -/
def State.compare (s : State) (op : BinaryOp) : AluForm → State
  | .ebGb e g =>
    let a := s.read8 (s.loc e)
    a.2.setFlags (op 8 a.1 (s.reg8 g) s.flags).2
  | .evGv e g =>
    let a := s.read16 (s.loc e)
    a.2.setFlags (op 16 a.1 (s.reg16 g) s.flags).2
  | .gbEb g e =>
    let b := s.read8 (s.loc e)
    b.2.setFlags (op 8 (s.reg8 g) b.1 s.flags).2
  | .gvEv g e =>
    let b := s.read16 (s.loc e)
    b.2.setFlags (op 16 (s.reg16 g) b.1 s.flags).2
  | .alIb imm => s.setFlags (op 8 (s.reg8 .al) imm s.flags).2
  | .axIw imm => s.setFlags (op 16 (s.reg16 .ax) imm s.flags).2
  | .ebIb _ e imm =>
    let a := s.read8 (s.loc e)
    a.2.setFlags (op 8 a.1 imm s.flags).2
  | .evIw e imm =>
    let a := s.read16 (s.loc e)
    a.2.setFlags (op 16 a.1 imm s.flags).2
  | .evIs e imm =>
    let a := s.read16 (s.loc e)
    a.2.setFlags (op 16 a.1 (sext16 imm) s.flags).2

/-- The six encodings of TEST (42_logic_shift.md R215). -/
def State.testForm (s : State) (op : BinaryOp) : TestForm → State
  | .ebGb e g =>
    let a := s.read8 (s.loc e)
    a.2.setFlags (op 8 a.1 (s.reg8 g) s.flags).2
  | .evGv e g =>
    let a := s.read16 (s.loc e)
    a.2.setFlags (op 16 a.1 (s.reg16 g) s.flags).2
  | .alIb imm => s.setFlags (op 8 (s.reg8 .al) imm s.flags).2
  | .axIw imm => s.setFlags (op 16 (s.reg16 .ax) imm s.flags).2
  | .ebIb e imm =>
    let a := s.read8 (s.loc e)
    a.2.setFlags (op 8 a.1 imm s.flags).2
  | .evIw e imm =>
    let a := s.read16 (s.loc e)
    a.2.setFlags (op 16 a.1 imm s.flags).2

/-- A one-operand instruction on `Eb` or `Ev`: one read and one write at the same place (40_data_transfer.md R130). -/
def State.unary (s : State) (op : UnaryOp) : RmForm → State
  | .eb e =>
    let a := s.read8 (s.loc e)
    a.2.put8 (s.loc e) (op 8 a.1 s.flags)
  | .ev e =>
    let a := s.read16 (s.loc e)
    a.2.put16 (s.loc e) (op 16 a.1 s.flags)

/-- The three encodings of INC and DEC (41_arithmetic.md R173, R176). -/
def State.incForm (s : State) (op : UnaryOp) : IncForm → State
  | .reg r => s.put16 (.reg r) (op 16 (s.reg16 r) s.flags)
  | .eb e => s.unary op (.eb e)
  | .ev e => s.unary op (.ev e)

/-! ### Shift counts (42_logic_shift.md R220) -/

/-- The count byte: 1, CL or the immediate, read before the destination is written. -/
def State.countByte (s : State) : Count → Byte
  | .one => 1
  | .cl => s.reg8 .cl
  | .imm n => n

/-- The count that a count byte means: itself up to 31; from 32 on what `shiftCountMask` says (R220 (b), 92 D10;
log 12). -/
def shiftCount (n : Byte) : Nat :=
  if n.toNat < 32 then n.toNat
  else
    match Config.shiftCountMask with
    | .whole => n.toNat
    | .low5 => n.toNat % 32

/-- A shift as an operation on its destination, for the count `c` and the draw `d`. -/
abbrev ShiftOp := (c : Nat) → (d : Word) → UnaryOp

/-- A shift or rotate: one read and one write of the destination, with the next free value for its undefined flags. The
count of draws moves on at the end of the instruction. -/
def State.shift (s : State) (op : ShiftOp) (f : RmForm) (n : Count) : State :=
  (s.unary (op (shiftCount (s.countByte n)) s.draw.1) f).draw.2

end Sys2Proof.Machine
end

