-- ==== Sys2Proof/Machine/Arithmetic.lean ====
section
/-! DEFINITION. The meanings of the arithmetic instructions (41_arithmetic.md). -/

namespace Sys2Proof.Machine

/-! ### Two operands (R170 to R178) -/

def addOp : BinaryOp := fun _ a b f => (addResult a b false, f.add a b false)

def adcOp : BinaryOp := fun _ a b f => (addResult a b f.cf, f.add a b f.cf)

def subOp : BinaryOp := fun _ a b f => (subResult a b false, f.sub a b false)

def sbbOp : BinaryOp := fun _ a b f => (subResult a b f.cf, f.sub a b f.cf)

/-- ADD (R171). -/
def execAdd (f : AluForm) (s : State) : Host.Outcome State Fault Refusal := .next (s.binary addOp f)

/-- ADC (R172). -/
def execAdc (f : AluForm) (s : State) : Host.Outcome State Fault Refusal := .next (s.binary adcOp f)

/-- SUB (R174). -/
def execSub (f : AluForm) (s : State) : Host.Outcome State Fault Refusal := .next (s.binary subOp f)

/-- SBB (R175). -/
def execSbb (f : AluForm) (s : State) : Host.Outcome State Fault Refusal := .next (s.binary sbbOp f)

/-- CMP: SUB's flags, nothing else written (R178). -/
def execCmp (f : AluForm) (s : State) : Host.Outcome State Fault Refusal := .next (s.compare subOp f)

/-! ### One operand (R173, R176, R177) -/

def incOp : UnaryOp := fun w a f => (addResult a (1#w) false, f.addKeepCf a (1#w) false)

def decOp : UnaryOp := fun w a f => (subResult a (1#w) false, f.subKeepCf a (1#w) false)

def negOp : UnaryOp := fun w a f => (subResult (0#w) a false, f.sub (0#w) a false)

/-- INC: CF unchanged (R173). -/
def execInc (f : IncForm) (s : State) : Host.Outcome State Fault Refusal := .next (s.incForm incOp f)

/-- DEC: CF unchanged (R176). -/
def execDec (f : IncForm) (s : State) : Host.Outcome State Fault Refusal := .next (s.incForm decOp f)

/-- NEG: the flags of 0 - a (R177). -/
def execNeg (f : RmForm) (s : State) : Host.Outcome State Fault Refusal := .next (s.unary negOp f)

/-! ### Multiplication (R179 to R181) -/

/-- DX:AX (00_scope.md R10). -/
def State.dxAx (s : State) : BitVec 32 := s.gpr.dx ++ s.gpr.ax

/-- `DX:AX <- p`. -/
def State.setDxAx (s : State) (p : BitVec 32) : State :=
  (s.setReg16 .dx (p.extractLsb' 16 16)).setReg16 .ax (p.extractLsb' 0 16)

/-- The flags of a product, with one draw for the undefined four. -/
def State.productFlags (s : State) (o : Bool) : State := s.draw.2.setFlags (s.flags.multiply o s.draw.1)

/-- The upper half of a byte product is not the sign extension of its lower half (R180). -/
def byteProductSpills (p : Word) : Bool := hiByte p != (if (loByte p).msb then 0xFF else 0x00)

/-- The upper half of a word product is not the sign extension of its lower half (R180). -/
def wordProductSpills (p : BitVec 32) : Bool :=
  p.extractLsb' 16 16 != (if (p.extractLsb' 0 16).msb then 0xFFFF#16 else 0x0000#16)

/-- MUL (R179). -/
def execMul (f : RmForm) (s : State) : Host.Outcome State Fault Refusal :=
  .next <|
    match f with
    | .eb e =>
      let v := s.read8 (s.loc e)
      let p : Word := BitVec.ofNat 16 ((s.reg8 .al).toNat * v.1.toNat)
      (v.2.setReg16 .ax p).productFlags (hiByte p != 0)
    | .ev e =>
      let v := s.read16 (s.loc e)
      let p : BitVec 32 := BitVec.ofNat 32 (s.gpr.ax.toNat * v.1.toNat)
      (v.2.setDxAx p).productFlags (p.extractLsb' 16 16 != 0)

/-- IMUL, one operand (R180). -/
def execImul (f : RmForm) (s : State) : Host.Outcome State Fault Refusal :=
  .next <|
    match f with
    | .eb e =>
      let v := s.read8 (s.loc e)
      let p : Word := BitVec.ofInt 16 ((s.reg8 .al).toInt * v.1.toInt)
      (v.2.setReg16 .ax p).productFlags (byteProductSpills p)
    | .ev e =>
      let v := s.read16 (s.loc e)
      let p : BitVec 32 := BitVec.ofInt 32 (s.gpr.ax.toInt * v.1.toInt)
      (v.2.setDxAx p).productFlags (wordProductSpills p)

/-- IMUL with an immediate, 69H and 6BH: the low 16 bits of the product (R181). DESIGN CHOICE (log 31): R181 lets a model
refuse both; they are implemented. -/
def execImulImm (g : Reg16) (e : RM Reg16) (f : ImmForm) (s : State) : Host.Outcome State Fault Refusal :=
  let v := s.read16 (s.loc e)
  let p : Int := v.1.toInt * (immValue f).toInt
  .next ((v.2.setReg16 g (BitVec.ofInt 16 p)).productFlags (signedOutside 16 p))

/-! ### Division (R182, R183) -/

/-- The six status flags drawn: after every DIV and IDIV. -/
def State.divideFlags (s : State) : State := s.draw.2.setFlags (s.flags.undefStatus s.draw.1)

/-- `divide_error`, byte form: the status flags, AL and AH take draws, then interrupt type 0 (R182). -/
def State.divideError8 (s : State) : State :=
  let s1 := s.divideFlags
  let s2 := s1.draw.2.setReg16 .ax s1.draw.1
  s2.interrupt 0 s2.faultOffset

/-- `divide_error`, word form: the status flags, AX and DX take draws, then interrupt type 0 (R182). -/
def State.divideError16 (s : State) : State :=
  let s1 := s.divideFlags
  let s2 := s1.draw.2.setReg16 .ax s1.draw.1
  let s3 := s2.draw.2.setReg16 .dx s2.draw.1
  s3.interrupt 0 s3.faultOffset

/-- Byte form: AL the quotient, AH the remainder. -/
def State.divided8 (s : State) (q r : Byte) : State := s.divideFlags.setReg16 .ax (wordOf q r)

/-- Word form: AX the quotient, DX the remainder. -/
def State.divided16 (s : State) (q r : Word) : State := (s.divideFlags.setReg16 .ax q).setReg16 .dx r

/-- DIV (R182). -/
def execDiv (f : RmForm) (s : State) : Host.Outcome State Fault Refusal :=
  .next <|
    match f with
    | .eb e =>
      let v := s.read8 (s.loc e)
      let n := s.gpr.ax.toNat
      if v.1 = 0 ∨ 0xFF < n / v.1.toNat then v.2.divideError8
      else v.2.divided8 (BitVec.ofNat 8 (n / v.1.toNat)) (BitVec.ofNat 8 (n % v.1.toNat))
    | .ev e =>
      let v := s.read16 (s.loc e)
      let n := s.dxAx.toNat
      if v.1 = 0 ∨ 0xFFFF < n / v.1.toNat then v.2.divideError16
      else v.2.divided16 (BitVec.ofNat 16 (n / v.1.toNat)) (BitVec.ofNat 16 (n % v.1.toNat))

/-- The quotient does not fit: above M - 1, below -M, or equal to -M where that traps (R183, 92 D9; log 11). -/
def quotientTraps (w : Nat) (q : Int) : Bool :=
  signedOutside w q || (decide (q = -(2 ^ (w - 1) : Int)) && Config.idivMinQuotientTraps)

/-- IDIV: the quotient truncated toward zero, the remainder with the sign of the dividend (R183). -/
def execIdiv (f : RmForm) (s : State) : Host.Outcome State Fault Refusal :=
  .next <|
    match f with
    | .eb e =>
      let v := s.read8 (s.loc e)
      let n := s.gpr.ax.toInt
      if v.1 = 0 ∨ quotientTraps 8 (n.tdiv v.1.toInt) then v.2.divideError8
      else v.2.divided8 (BitVec.ofInt 8 (n.tdiv v.1.toInt)) (BitVec.ofInt 8 (n.tmod v.1.toInt))
    | .ev e =>
      let v := s.read16 (s.loc e)
      let n := s.dxAx.toInt
      if v.1 = 0 ∨ quotientTraps 16 (n.tdiv v.1.toInt) then v.2.divideError16
      else v.2.divided16 (BitVec.ofInt 16 (n.tdiv v.1.toInt)) (BitVec.ofInt 16 (n.tmod v.1.toInt))

/-! ### Decimal adjusts (R184 to R189) -/

/-- `(AL and 0FH) > 9 or AF = 1`. -/
def lowDigitAdjusts (al : Byte) (af : Bool) : Bool := decide (9 < al.toNat % 16) || af

/-- AAA and AAS: AL and AH move by 6 and 1 if the low digit needs it; AL keeps its low digit; AF = CF; OF, PF, SF and ZF
drawn (R184, R185). -/
def State.asciiAdjust (s : State) (al ah : Byte) (adjusts : Bool) : State :=
  s.draw.2.setReg16 .ax (wordOf (al &&& 0x0F) ah)
    |>.setFlags { (s.flags.undefOf s.draw.1).undefSzp s.draw.1 with af := adjusts, cf := adjusts }

/-- AAA (R184). -/
def execAaa (s : State) : Host.Outcome State Fault Refusal :=
  .next <|
    if lowDigitAdjusts (s.reg8 .al) s.flags.af then s.asciiAdjust (s.reg8 .al + 6) (s.reg8 .ah + 1) true
    else s.asciiAdjust (s.reg8 .al) (s.reg8 .ah) false

/-- AAS (R185). -/
def execAas (s : State) : Host.Outcome State Fault Refusal :=
  .next <|
    if lowDigitAdjusts (s.reg8 .al) s.flags.af then s.asciiAdjust (s.reg8 .al - 6) (s.reg8 .ah - 1) true
    else s.asciiAdjust (s.reg8 .al) (s.reg8 .ah) false

/-- AAM and AAD: AX written, SF, ZF and PF from the new AL; AF, CF and OF drawn (R186, R187). -/
def State.asciiScale (s : State) (al ah : Byte) : State :=
  s.draw.2.setReg16 .ax (wordOf al ah)
    |>.setFlags ((((s.flags.setSzp al).undefAf s.draw.1).undefCf s.draw.1).undefOf s.draw.1)

/-- AAM (R186). -/
def execAam (s : State) : Host.Outcome State Fault Refusal :=
  .next (s.asciiScale (BitVec.ofNat 8 ((s.reg8 .al).toNat % 10)) (BitVec.ofNat 8 ((s.reg8 .al).toNat / 10)))

/-- AAD (R187). -/
def execAad (s : State) : Host.Outcome State Fault Refusal :=
  .next (s.asciiScale (BitVec.ofNat 8 ((s.reg8 .ah).toNat * 10 + (s.reg8 .al).toNat)) 0)

/-- DAA and DAS: AL, AF and CF written, SF, ZF and PF from the new AL, OF drawn (R188, R189). -/
def State.decimalAdjust (s : State) (al : Byte) (af cf : Bool) : State :=
  s.draw.2.setReg8 .al al
    |>.setFlags { (s.flags.setSzp al).undefOf s.draw.1 with af := af, cf := cf }

/-- DAA (R188): the carry of the first adjustment takes part in the second test. -/
def execDaa (s : State) : Host.Outcome State Fault Refusal :=
  let al := s.reg8 .al
  let first := lowDigitAdjusts al s.flags.af
  let c6 := first && decide (0xFF < al.toNat + 6)
  let al1 := if first then al + 6 else al
  let second := decide (0x9F < al1.toNat) || s.flags.cf || c6
  .next (s.decimalAdjust (if second then al1 + 0x60 else al1) first second)

/-- The 24 inputs of DAS whose result the spec leaves open (R189, 93 U8). -/
def dasOpen (al : Byte) (af cf : Bool) : Bool :=
  !cf && ((decide (al.toNat ≤ 5) && af)
    || (decide (0x9A ≤ al.toNat) && decide (al.toNat ≤ 0x9F))
    || (decide (0xA0 ≤ al.toNat) && decide (al.toNat ≤ 0xA5) && af))

/-- DAS on an open input: AL and all six status flags drawn (R189, 93 U8). -/
def State.dasDrawn (s : State) : State :=
  let s1 := s.divideFlags
  s1.draw.2.setReg8 .al (loByte s1.draw.1)

/-- DAS (R189): the second test reads AL after the first adjustment. -/
def execDas (s : State) : Host.Outcome State Fault Refusal :=
  let al := s.reg8 .al
  let first := lowDigitAdjusts al s.flags.af
  let al1 := if first then al - 6 else al
  let second := decide (0x9F < al1.toNat) || s.flags.cf
  .next <|
    if dasOpen al s.flags.af s.flags.cf then s.dasDrawn
    else s.decimalAdjust (if second then al1 - 0x60 else al1) first second

/-! ### Sign extension (R190, R191) -/

/-- CBW (R190). -/
def execCbw (s : State) : Host.Outcome State Fault Refusal :=
  .next (s.setReg8 .ah (if (s.reg8 .al).toNat < 0x80 then 0 else 0xFF))

/-- CWD (R191). -/
def execCwd (s : State) : Host.Outcome State Fault Refusal :=
  .next (s.setReg16 .dx (if s.gpr.ax.toNat < 0x8000 then 0 else 0xFFFF))

end Sys2Proof.Machine
end

