-- ==== Sys2Proof/Machine/Control.lean ====
section
/-! DEFINITION. The meanings of the control transfer instructions (44_control_transfer.md). IP is the offset of the next
instruction (10_state.md R26). -/

namespace Sys2Proof.Machine

/-! ### CALL (R261 to R264) -/

/-- CALL near-proc (R261). -/
def execCallNear (rel : Word) (s : State) : Host.Outcome State Fault Refusal :=
  .next ((s.push16 s.ip).jumpTo (s.ip + rel))

/-- CALL regptr16, CALL memptr16: the target is read before the push (R262). -/
def execCallInd (e : RM Reg16) (s : State) : Host.Outcome State Fault Refusal :=
  let t := s.read16 (s.loc e)
  .next ((t.2.push16 s.ip).jumpTo t.1)

/-- CALL far-proc: CS is pushed, then IP (R263). -/
def execCallFar (off seg : Word) (s : State) : Host.Outcome State Fault Refusal :=
  .next (((s.push16 s.seg.cs).push16 s.ip).farJumpTo seg off)

/-- CALL memptr32: both words are read before anything is pushed (R264). -/
def execCallFarInd (m : Mem) (s : State) : Host.Outcome State Fault Refusal :=
  let p := s.readPointer m
  .next (((p.2.push16 s.seg.cs).push16 s.ip).farJumpTo p.1.2 p.1.1)

/-! ### RET (R265, R266) -/

/-- The optional pop value, added to SP after the pops. -/
def State.discard (s : State) (n : Option Word) : State := s.setReg16 .sp (s.gpr.sp + n.getD 0)

/-- RET, intra-segment (R265). -/
def execRetNear (n : Option Word) (s : State) : Host.Outcome State Fault Refusal :=
  .next ((s.pop16.2.discard n).jumpTo s.pop16.1)

/-- RET, inter-segment (R266). -/
def execRetFar (n : Option Word) (s : State) : Host.Outcome State Fault Refusal :=
  let ip := s.pop16
  let cs := ip.2.pop16
  .next ((cs.2.discard n).farJumpTo cs.1 ip.1)

/-! ### JMP (R267 to R270) -/

/-- JMP short-label (R267). -/
def execJmpShort (rel : Byte) (s : State) : Host.Outcome State Fault Refusal := .next (s.jumpTo (s.ip + sext16 rel))

/-- JMP near-label (R267). -/
def execJmpNear (rel : Word) (s : State) : Host.Outcome State Fault Refusal := .next (s.jumpTo (s.ip + rel))

/-- JMP regptr16, JMP memptr16 (R268). -/
def execJmpInd (e : RM Reg16) (s : State) : Host.Outcome State Fault Refusal :=
  let t := s.read16 (s.loc e)
  .next (t.2.jumpTo t.1)

/-- JMP far-label (R269). -/
def execJmpFar (off seg : Word) (s : State) : Host.Outcome State Fault Refusal := .next (s.farJumpTo seg off)

/-- JMP memptr32 (R270). -/
def execJmpFarInd (m : Mem) (s : State) : Host.Outcome State Fault Refusal :=
  let p := s.readPointer m
  .next (p.2.farJumpTo p.1.2 p.1.1)

/-! ### Conditional jumps (R280 to R298) -/

/-- JO (R281). -/
def execJo (rel : Byte) (s : State) : Host.Outcome State Fault Refusal := .next (s.jumpIf s.flags.ofl rel)

/-- JNO (R282). -/
def execJno (rel : Byte) (s : State) : Host.Outcome State Fault Refusal := .next (s.jumpIf (!s.flags.ofl) rel)

/-- JB, JNAE (R283). -/
def execJb (rel : Byte) (s : State) : Host.Outcome State Fault Refusal := .next (s.jumpIf s.flags.cf rel)

/-- JC (R284). -/
def execJc (rel : Byte) (s : State) : Host.Outcome State Fault Refusal := .next (s.jumpIf s.flags.cf rel)

/-- JAE, JNB (R285). -/
def execJae (rel : Byte) (s : State) : Host.Outcome State Fault Refusal := .next (s.jumpIf (!s.flags.cf) rel)

/-- JNC (R286). -/
def execJnc (rel : Byte) (s : State) : Host.Outcome State Fault Refusal := .next (s.jumpIf (!s.flags.cf) rel)

/-- JE, JZ (R287). -/
def execJe (rel : Byte) (s : State) : Host.Outcome State Fault Refusal := .next (s.jumpIf s.flags.zf rel)

/-- JNE, JNZ (R288). -/
def execJne (rel : Byte) (s : State) : Host.Outcome State Fault Refusal := .next (s.jumpIf (!s.flags.zf) rel)

/-- JBE, JNA (R289). -/
def execJbe (rel : Byte) (s : State) : Host.Outcome State Fault Refusal := .next (s.jumpIf s.flags.belowOrEqual rel)

/-- JA, JNBE: CF = 0 and ZF = 0 (R290). -/
def execJa (rel : Byte) (s : State) : Host.Outcome State Fault Refusal := .next (s.jumpIf (!s.flags.belowOrEqual) rel)

/-- JS (R291). -/
def execJs (rel : Byte) (s : State) : Host.Outcome State Fault Refusal := .next (s.jumpIf s.flags.sf rel)

/-- JNS (R292). -/
def execJns (rel : Byte) (s : State) : Host.Outcome State Fault Refusal := .next (s.jumpIf (!s.flags.sf) rel)

/-- JP, JPE (R293). -/
def execJp (rel : Byte) (s : State) : Host.Outcome State Fault Refusal := .next (s.jumpIf s.flags.pf rel)

/-- JNP, JPO (R294). -/
def execJnp (rel : Byte) (s : State) : Host.Outcome State Fault Refusal := .next (s.jumpIf (!s.flags.pf) rel)

/-- JL, JNGE (R295). -/
def execJl (rel : Byte) (s : State) : Host.Outcome State Fault Refusal := .next (s.jumpIf s.flags.less rel)

/-- JGE, JNL (R296). -/
def execJge (rel : Byte) (s : State) : Host.Outcome State Fault Refusal := .next (s.jumpIf (!s.flags.less) rel)

/-- JLE, JNG (R297). -/
def execJle (rel : Byte) (s : State) : Host.Outcome State Fault Refusal := .next (s.jumpIf s.flags.lessOrEqual rel)

/-- JG, JNLE (R298). -/
def execJg (rel : Byte) (s : State) : Host.Outcome State Fault Refusal := .next (s.jumpIf (!s.flags.lessOrEqual) rel)

/-! ### JCXZ and the loops (R299 to R302) -/

/-- JCXZ (R299). -/
def execJcxz (rel : Byte) (s : State) : Host.Outcome State Fault Refusal :=
  .next (s.jumpIf (decide (s.gpr.cx = 0)) rel)

/-- `CX <- (CX - 1) mod 2^16`, then a jump if CX is not 0 and the given condition holds. -/
def State.loopWhile (s : State) (cond : Bool) (rel : Byte) : State :=
  (s.setReg16 .cx (s.gpr.cx - 1)).jumpIf (cond && decide (s.gpr.cx - 1 ≠ 0)) rel

/-- LOOP (R300). -/
def execLoop (rel : Byte) (s : State) : Host.Outcome State Fault Refusal := .next (s.loopWhile true rel)

/-- LOOPE, LOOPZ (R301). -/
def execLoope (rel : Byte) (s : State) : Host.Outcome State Fault Refusal := .next (s.loopWhile s.flags.zf rel)

/-- LOOPNE, LOOPNZ (R302). -/
def execLoopne (rel : Byte) (s : State) : Host.Outcome State Fault Refusal := .next (s.loopWhile (!s.flags.zf) rel)

/-! ### Software interrupts and IRET (R303 to R306) -/

/-- INT n (R303). -/
def execInt (n : Byte) (s : State) : Host.Outcome State Fault Refusal := .next (s.interrupt n s.ip)

/-- INT 3, one byte (R304). -/
def execInt3 (s : State) : Host.Outcome State Fault Refusal := .next (s.interrupt 3 s.ip)

/-- INTO (R305). -/
def execInto (s : State) : Host.Outcome State Fault Refusal :=
  .next (if s.flags.ofl then s.interrupt 4 s.ip else s)

/-- IRET (R306). -/
def execIret (s : State) : Host.Outcome State Fault Refusal := .next s.interruptReturn

/-! ### BOUND, ENTER, LEAVE (R307 to R309) -/

/-- BOUND: signed comparisons; a failure is interrupt type 5 (R307). -/
def execBound (g : Reg16) (m : Mem) (s : State) : Host.Outcome State Fault Refusal :=
  let p := s.readPointer m
  let i := (s.reg16 g).toInt
  .next (if i < p.1.1.toInt ∨ p.1.2.toInt < i then p.2.interrupt 5 p.2.faultOffset else p.2)

/-- The level that ENTER's byte means: itself up to 31; from 32 on either reading (R308, 92 D11; log 14). -/
def enterLevel (n : Byte) : Nat :=
  if n.toNat < 32 then n.toNat
  else
    match Config.enterLevelMask with
    | .whole => n.toNat
    | .low5 => n.toNat % 32

/-- ENTER's loop: each time BP falls by 2 and the word at SS:BP is pushed (R308). -/
def State.copyFrames (s : State) : Nat → State
  | 0 => s
  | k + 1 =>
    let s1 := s.setReg16 .bp (s.gpr.bp - 2)
    let v := s1.memRead16 s1.seg.ss s1.gpr.bp
    (v.2.push16 v.1).copyFrames k

/-- The part of ENTER for a level above 0: the loop, then `push16(FP)` (R308). -/
def State.enterDisplay (s : State) (fp : Word) : Nat → State
  | 0 => s
  | k + 1 => (s.copyFrames k).push16 fp

/-- ENTER (R308). -/
def execEnter (locals : Word) (level : Byte) (s : State) : Host.Outcome State Fault Refusal :=
  let s1 := s.push16 s.gpr.bp
  let fp := s1.gpr.sp
  let s2 := s1.enterDisplay fp (enterLevel level)
  let s3 := s2.setReg16 .bp fp
  .next (s3.setReg16 .sp (s3.gpr.sp - locals))

/-- LEAVE (R309). -/
def execLeave (s : State) : Host.Outcome State Fault Refusal :=
  let t := (s.setReg16 .sp s.gpr.bp).pop16
  .next (t.2.setReg16 .bp t.1)

end Sys2Proof.Machine
end

