-- ==== Sys2Proof/Machine/DataTransfer.lean ====
section
/-! DEFINITION. The meanings of the data transfer instructions (40_data_transfer.md). -/

namespace Sys2Proof.Machine

/-- MOV, general forms (R131). -/
def execMov (f : MovForm) (s : State) : Host.Outcome State Fault Refusal :=
  .next <|
    match f with
    | .ebGb e g => s.write8 (s.loc e) (s.reg8 g)
    | .evGv e g => s.write16 (s.loc e) (s.reg16 g)
    | .gbEb g e => (s.read8 (s.loc e)).2.setReg8 g (s.read8 (s.loc e)).1
    | .gvEv g e => (s.read16 (s.loc e)).2.setReg16 g (s.read16 (s.loc e)).1
    | .alOb off => (s.memRead8 (s.overridden .ds) off).2.setReg8 .al (s.memRead8 (s.overridden .ds) off).1
    | .axOv off => (s.memRead16 (s.overridden .ds) off).2.setReg16 .ax (s.memRead16 (s.overridden .ds) off).1
    | .obAl off => s.memWrite8 (s.overridden .ds) off (s.reg8 .al)
    | .ovAx off => s.memWrite16 (s.overridden .ds) off (s.reg16 .ax)
    | .gbIb g imm => s.setReg8 g imm
    | .gvIw g imm => s.setReg16 g imm
    | .ebIb e imm => s.write8 (s.loc e) imm
    | .evIw e imm => s.write16 (s.loc e) imm

/-- MOV from a segment register, 8CH (R132). -/
def execMovFromSeg (e : RM Reg16) (r : SReg) (s : State) : Host.Outcome State Fault Refusal :=
  .next (s.write16 (s.loc e) (s.sreg r))

/-- MOV to a segment register, 8EH: the load holds off all interrupts for one instruction (R132). -/
def execMovToSeg (r : LoadSReg) (e : RM Reg16) (s : State) : Host.Outcome State Fault Refusal :=
  let v := s.read16 (s.loc e)
  .next ((v.2.loadSReg r v.1).setInhibit .all)

/-- PUSH reg16, 50H + r: the register is read after SP has fallen, so PUSH SP stores the decremented value (R133). -/
def execPushReg (r : Reg16) (s : State) : Host.Outcome State Fault Refusal :=
  .next (s.push16 ((s.setReg16 .sp (s.gpr.sp - 2)).reg16 r))

/-- PUSH Ev, FFH /6: the operand is read before SP falls (R133; log 28). -/
def execPushRm (e : RM Reg16) (s : State) : Host.Outcome State Fault Refusal :=
  let v := s.read16 (s.loc e)
  .next (v.2.push16 v.1)

/-- PUSH seg-reg (R134). -/
def execPushSeg (r : SReg) (s : State) : Host.Outcome State Fault Refusal :=
  .next (s.push16 (s.sreg r))

/-- PUSH immediate, 68H and 6AH (R135). DESIGN CHOICE (log 31): R135 lets a model class both as unused encodings
instead; they are implemented. -/
def execPushImm (f : ImmForm) (s : State) : Host.Outcome State Fault Refusal :=
  .next (s.push16 (immValue f))

/-- POP reg16: SP rises before the register is written, so POP SP leaves the popped word (R136). -/
def execPopReg (r : Reg16) (s : State) : Host.Outcome State Fault Refusal :=
  .next (s.pop16.2.setReg16 r s.pop16.1)

/-- POP Ev: the address is that of the registers before the instruction (R136). -/
def execPopRm (e : RM Reg16) (s : State) : Host.Outcome State Fault Refusal :=
  .next (s.pop16.2.write16 (s.loc e) s.pop16.1)

/-- POP seg-reg: as a MOV to a segment register, all interrupts are held off for one instruction (R137). -/
def execPopSeg (r : LoadSReg) (s : State) : Host.Outcome State Fault Refusal :=
  .next ((s.pop16.2.loadSReg r s.pop16.1).setInhibit .all)

/-- PUSHA: the SP pushed is the SP before the first push (R138). -/
def execPusha (s : State) : Host.Outcome State Fault Refusal :=
  .next <|
    (((((((s.push16 s.gpr.ax).push16 s.gpr.cx).push16 s.gpr.dx).push16 s.gpr.bx).push16 s.gpr.sp).push16
      s.gpr.bp).push16 s.gpr.si).push16 s.gpr.di

/-- A pop into a register. -/
def State.popInto (s : State) (r : Reg16) : State := s.pop16.2.setReg16 r s.pop16.1

/-- POPA: the word in SP's place is skipped unread (R139). -/
def execPopa (s : State) : Host.Outcome State Fault Refusal :=
  let s1 := ((s.popInto .di).popInto .si).popInto .bp
  let s2 := s1.setReg16 .sp (s1.gpr.sp + 2)
  .next ((((s2.popInto .bx).popInto .dx).popInto .cx).popInto .ax)

/-- PUSHF (R149). -/
def execPushf (s : State) : Host.Outcome State Fault Refusal :=
  .next s.pushFlags

/-- POPF (R150). -/
def execPopf (s : State) : Host.Outcome State Fault Refusal :=
  .next (s.pop16.2.setFlags (Flags.ofWord s.pop16.1))

/-- XCHG: the operand is read, then written with the register, then the register is written (R140). -/
def execXchg (f : XchgForm) (s : State) : Host.Outcome State Fault Refusal :=
  .next <|
    match f with
    | .ebGb e g =>
      let t := s.read8 (s.loc e)
      (t.2.write8 (s.loc e) (s.reg8 g)).setReg8 g t.1
    | .evGv e g =>
      let t := s.read16 (s.loc e)
      (t.2.write16 (s.loc e) (s.reg16 g)).setReg16 g t.1
    | .axReg r => (s.setReg16 .ax (s.reg16 r)).setReg16 r (s.reg16 .ax)

/-- XLAT: AL indexes the table at BX (R141). -/
def execXlat (s : State) : Host.Outcome State Fault Refusal :=
  let v := s.memRead8 (s.overridden .ds) (s.gpr.bx + zext16 (s.reg8 .al))
  .next (v.2.setReg8 .al v.1)

/-- IN (R142). -/
def execInAcc (f : PortForm) (s : State) : Host.Outcome State Fault Refusal :=
  .next <|
    if portIsWord f then (s.ioRead16 (s.port f)).2.setReg16 .ax (s.ioRead16 (s.port f)).1
    else (s.ioRead8 (s.port f)).2.setReg8 .al (s.ioRead8 (s.port f)).1

/-- OUT (R143). -/
def execOutAcc (f : PortForm) (s : State) : Host.Outcome State Fault Refusal :=
  .next <|
    if portIsWord f then s.ioWrite16 (s.port f) (s.reg16 .ax) else s.ioWrite8 (s.port f) (s.reg8 .al)

/-- LEA: the offset, with no memory access (R144). -/
def execLea (g : Reg16) (m : Mem) (s : State) : Host.Outcome State Fault Refusal :=
  .next (s.setReg16 g (s.ea m))

/-- LDS: both words are read before either register is written (R145). -/
def execLds (g : Reg16) (m : Mem) (s : State) : Host.Outcome State Fault Refusal :=
  let p := s.readPointer m
  .next ((p.2.setReg16 g p.1.1).loadSReg .ds p.1.2)

/-- LES (R146). -/
def execLes (g : Reg16) (m : Mem) (s : State) : Host.Outcome State Fault Refusal :=
  let p := s.readPointer m
  .next ((p.2.setReg16 g p.1.1).loadSReg .es p.1.2)

/-- LAHF: bits 5, 3 and 1 of AH are drawn (R147). -/
def execLahf (s : State) : Host.Outcome State Fault Refusal :=
  .next (s.draw.2.setReg8 .ah (s.flags.lowByte s.draw.1))

/-- SAHF (R148). -/
def execSahf (s : State) : Host.Outcome State Fault Refusal :=
  .next (s.setFlags (s.flags.withLowByte (s.reg8 .ah)))

end Sys2Proof.Machine
end

