-- ==== Sys2Proof/Machine/Logic.lean ====
section
/-! DEFINITION. The meanings of the logical instructions (42_logic_shift.md R210 to R215). -/

namespace Sys2Proof.Machine

/-- A bitwise operation on either width. -/
abbrev Bitwise := (w : Nat) → BitVec w → BitVec w → BitVec w

/-- A logical instruction's operation: its result, and the flags of R210 with the draw `d` for AF. The count of draws
moves on at the end of the instruction. -/
def logicOp (op : Bitwise) (d : Word) : BinaryOp := fun w a b f => (op w a b, f.logic (op w a b) d)

def andBits : Bitwise := fun _ a b => a &&& b

def orBits : Bitwise := fun _ a b => a ||| b

def xorBits : Bitwise := fun _ a b => a ^^^ b

def notOp : UnaryOp := fun _ a f => (~~~a, f)

/-- NOT: no flag changes (R211). -/
def execNot (f : RmForm) (s : State) : Host.Outcome State Fault Refusal := .next (s.unary notOp f)

/-- AND (R212). -/
def execAnd (f : AluForm) (s : State) : Host.Outcome State Fault Refusal :=
  .next (s.binary (logicOp andBits s.draw.1) f).draw.2

/-- OR (R213). -/
def execOr (f : AluForm) (s : State) : Host.Outcome State Fault Refusal :=
  .next (s.binary (logicOp orBits s.draw.1) f).draw.2

/-- XOR (R214). -/
def execXor (f : AluForm) (s : State) : Host.Outcome State Fault Refusal :=
  .next (s.binary (logicOp xorBits s.draw.1) f).draw.2

/-- TEST: AND's flags, nothing else written (R215). -/
def execTest (f : TestForm) (s : State) : Host.Outcome State Fault Refusal :=
  .next (s.testForm (logicOp andBits s.draw.1) f).draw.2

end Sys2Proof.Machine
end

