-- ==== Sys2Proof/Machine/Processor.lean ====
section
/-! DEFINITION. The meanings of the processor control instructions, of the LOCK and segment-override bytes
(45_processor_control.md), and of an unused encoding (30_encoding.md R124). -/

namespace Sys2Proof.Machine

/-- CLC (R320). -/
def execClc (s : State) : Host.Outcome State Fault Refusal := .next (s.setFlags { s.flags with cf := false })

/-- STC (R321). -/
def execStc (s : State) : Host.Outcome State Fault Refusal := .next (s.setFlags { s.flags with cf := true })

/-- CMC (R322). -/
def execCmc (s : State) : Host.Outcome State Fault Refusal := .next (s.setFlags { s.flags with cf := !s.flags.cf })

/-- CLD (R323). -/
def execCld (s : State) : Host.Outcome State Fault Refusal := .next (s.setFlags { s.flags with df := false })

/-- STD (R324). -/
def execStd (s : State) : Host.Outcome State Fault Refusal := .next (s.setFlags { s.flags with df := true })

/-- CLI (R325). -/
def execCli (s : State) : Host.Outcome State Fault Refusal := .next (s.setFlags { s.flags with ifl := false })

/-- STI: a maskable interrupt is held off for one instruction (R327). -/
def execSti (s : State) : Host.Outcome State Fault Refusal :=
  .next ((s.setFlags { s.flags with ifl := true }).setInhibit .maskable)

/-- HLT (R326). -/
def execHlt (s : State) : Host.Outcome State Fault Refusal := .next (s.setHalted true)

/-- WAIT: complete if the test line is active; else IP goes back to the first byte of the instruction (R328). -/
def execWait (s : State) : Host.Outcome State Fault Refusal :=
  .next (if s.env.testLine then s else s.setIp s.latches.start)

/-- What ESC does where it does not trap: a memory operand is read as a word and discarded (R330). -/
def State.escAccess (s : State) (e : RM Reg16) : State :=
  match e with
  | .reg _ => s
  | .mem m => (s.memRead16 (s.segRm m) (s.ea m)).2

/-- ESC: interrupt type 7 with the offset of the instruction's first byte, or the operand access, as `escTraps` says
(R330, 92 D16; log 15). The external opcode is the coprocessor's. -/
def execEsc (_op : BitVec 6) (e : RM Reg16) (s : State) : Host.Outcome State Fault Refusal :=
  .next (if Config.escTraps then s.interrupt 7 s.latches.start else s.escAccess e)

/-- NOP (R334). -/
def execNop (s : State) : Host.Outcome State Fault Refusal := .next s

/-- LOCK: no effect on the instruction that it stands before (R332, 20_memory.md R77). -/
def execLock (s : State) : Host.Outcome State Fault Refusal := .next (s.setLatches { s.latches with lock := true })

/-- The ES segment override (R336). -/
def execSegEs (s : State) : Host.Outcome State Fault Refusal :=
  .next (s.setLatches { s.latches with override := some .es })

/-- The CS segment override (R336). -/
def execSegCs (s : State) : Host.Outcome State Fault Refusal :=
  .next (s.setLatches { s.latches with override := some .cs })

/-- The SS segment override (R336). -/
def execSegSs (s : State) : Host.Outcome State Fault Refusal :=
  .next (s.setLatches { s.latches with override := some .ss })

/-- The DS segment override (R336). -/
def execSegDs (s : State) : Host.Outcome State Fault Refusal :=
  .next (s.setLatches { s.latches with override := some .ds })

/-- An unused encoding is a fault of the model (30_encoding.md R124, 92 D15). -/
def execUnused (_u : Unused) (_s : State) : Host.Outcome State Fault Refusal := .fault .unusedEncoding

end Sys2Proof.Machine
end

