-- ==== Sys2Proof/Machine/Shifts.lean ====
section
/-! DEFINITION. The meanings of the shifts and rotates (42_logic_shift.md R220 to R227). -/

namespace Sys2Proof.Machine

def shlOp : ShiftOp := fun c d _ a f =>
  ((shlBy a c).value,
    f.shift c (shlBy a c) (definedForOne c (signDiffersFrom (shlBy a c).value (shlBy a c).carry) d) d)

def shrOp : ShiftOp := fun c d _ a f =>
  ((shrBy a c).value, f.shift c (shrBy a c) (definedForOne c (topBitsDiffer (shrBy a c).value) d) d)

/-- SAR clears OF for every count but 0 (R223). -/
def sarOp : ShiftOp := fun c d _ a f => ((sarBy a c).value, f.shift c (sarBy a c) false d)

def rolOp : ShiftOp := fun c d _ a f =>
  ((rolBy a c).value,
    f.rotate c (rolBy a c) (definedForOne c (signDiffersFrom (rolBy a c).value (rolBy a c).carry) d) d)

def rorOp : ShiftOp := fun c d _ a f =>
  ((rorBy a c).value, f.rotate c (rorBy a c) (definedForOne c (topBitsDiffer (rorBy a c).value) d) d)

def rclOp : ShiftOp := fun c d _ a f =>
  ((rclBy f.cf a c).value,
    f.rotate c (rclBy f.cf a c)
      (definedForOne c (signDiffersFrom (rclBy f.cf a c).value (rclBy f.cf a c).carry) d) d)

def rcrOp : ShiftOp := fun c d _ a f =>
  ((rcrBy f.cf a c).value,
    f.rotate c (rcrBy f.cf a c) (definedForOne c (topBitsDiffer (rcrBy f.cf a c).value) d) d)

/-- SHL, SAL (R221). -/
def execShl (f : RmForm) (c : Count) (s : State) : Host.Outcome State Fault Refusal := .next (s.shift shlOp f c)

/-- SHR (R222). -/
def execShr (f : RmForm) (c : Count) (s : State) : Host.Outcome State Fault Refusal := .next (s.shift shrOp f c)

/-- SAR (R223). -/
def execSar (f : RmForm) (c : Count) (s : State) : Host.Outcome State Fault Refusal := .next (s.shift sarOp f c)

/-- ROL (R224). -/
def execRol (f : RmForm) (c : Count) (s : State) : Host.Outcome State Fault Refusal := .next (s.shift rolOp f c)

/-- ROR (R225). -/
def execRor (f : RmForm) (c : Count) (s : State) : Host.Outcome State Fault Refusal := .next (s.shift rorOp f c)

/-- RCL (R226). -/
def execRcl (f : RmForm) (c : Count) (s : State) : Host.Outcome State Fault Refusal := .next (s.shift rclOp f c)

/-- RCR (R227). -/
def execRcr (f : RmForm) (c : Count) (s : State) : Host.Outcome State Fault Refusal := .next (s.shift rcrOp f c)

end Sys2Proof.Machine
end

