-- ==== Sys2Proof/Machine/Strings.lean ====
section
/-! DEFINITION. The meanings of the string instructions and of the repeat prefix bytes (43_string.md). -/

namespace Sys2Proof.Machine

/-! ### What the primitives share (R240) -/

/-- `step(P)`: by the element size, up or down as DF says (R240). -/
def State.stepped (s : State) (n p : Word) : Word := if s.flags.df then p - n else p + n

def State.stepSi (s : State) (n : Word) : State := s.setReg16 .si (s.stepped n s.gpr.si)

def State.stepDi (s : State) (n : Word) : State := s.setReg16 .di (s.stepped n s.gpr.di)

/-- Bit 0 of the prefix byte: the ZF under which a comparison goes on (R241). -/
def Rep.continueZf : Rep → Bool
  | .repe => true
  | .repne => false

/-- A repeated primitive has finished after an iteration: its comparison ended it, or CX is 0 (R241). -/
def State.repeatEnds (s : State) (k : Rep) (compares : Bool) : Bool :=
  (compares && (s.flags.zf != k.continueZf)) || decide (s.gpr.cx = 0)

/-- One step of a string instruction (R241): the primitive alone if there is no repeat prefix; else nothing if CX = 0,
or one iteration, after which IP is the next instruction's offset or again that of the first prefix byte. -/
def State.repeated (s : State) (compares : Bool) (primitive : State → State) : State :=
  match s.latches.rep with
  | none => primitive s
  | some k =>
    if s.gpr.cx = 0 then s
    else
      let t := (primitive s).setReg16 .cx ((primitive s).gpr.cx - 1)
      if t.repeatEnds k compares then t else t.setIp t.latches.start

/-! ### The primitives (R242 to R248) -/

def State.movs8 (s : State) : State :=
  let v := s.memRead8 s.srcSeg s.gpr.si
  ((v.2.memWrite8 s.seg.es s.gpr.di v.1).stepSi 1).stepDi 1

def State.movs16 (s : State) : State :=
  let v := s.memRead16 s.srcSeg s.gpr.si
  ((v.2.memWrite16 s.seg.es s.gpr.di v.1).stepSi 2).stepDi 2

/-- The source-string element minus the destination-string element (R243). -/
def State.cmps8 (s : State) : State :=
  let a := s.memRead8 s.srcSeg s.gpr.si
  let b := a.2.memRead8 s.seg.es s.gpr.di
  ((b.2.setFlags (s.flags.sub a.1 b.1 false)).stepSi 1).stepDi 1

def State.cmps16 (s : State) : State :=
  let a := s.memRead16 s.srcSeg s.gpr.si
  let b := a.2.memRead16 s.seg.es s.gpr.di
  ((b.2.setFlags (s.flags.sub a.1 b.1 false)).stepSi 2).stepDi 2

/-- The accumulator minus the destination-string element (R244). -/
def State.scas8 (s : State) : State :=
  let b := s.memRead8 s.seg.es s.gpr.di
  (b.2.setFlags (s.flags.sub (s.reg8 .al) b.1 false)).stepDi 1

def State.scas16 (s : State) : State :=
  let b := s.memRead16 s.seg.es s.gpr.di
  (b.2.setFlags (s.flags.sub s.gpr.ax b.1 false)).stepDi 2

def State.lods8 (s : State) : State :=
  let v := s.memRead8 s.srcSeg s.gpr.si
  (v.2.setReg8 .al v.1).stepSi 1

def State.lods16 (s : State) : State :=
  let v := s.memRead16 s.srcSeg s.gpr.si
  (v.2.setReg16 .ax v.1).stepSi 2

def State.stos8 (s : State) : State := (s.memWrite8 s.seg.es s.gpr.di (s.reg8 .al)).stepDi 1

def State.stos16 (s : State) : State := (s.memWrite16 s.seg.es s.gpr.di s.gpr.ax).stepDi 2

def State.ins8 (s : State) : State :=
  let v := s.ioRead8 s.gpr.dx
  (v.2.memWrite8 s.seg.es s.gpr.di v.1).stepDi 1

def State.ins16 (s : State) : State :=
  let v := s.ioRead16 s.gpr.dx
  (v.2.memWrite16 s.seg.es s.gpr.di v.1).stepDi 2

def State.outs8 (s : State) : State :=
  let v := s.memRead8 s.srcSeg s.gpr.si
  (v.2.ioWrite8 s.gpr.dx v.1).stepSi 1

def State.outs16 (s : State) : State :=
  let v := s.memRead16 s.srcSeg s.gpr.si
  (v.2.ioWrite16 s.gpr.dx v.1).stepSi 2

/-! ### The meanings -/

/-- INSB (R247). -/
def execInsb (s : State) : Host.Outcome State Fault Refusal := .next (s.repeated false State.ins8)

/-- INSW (R247). -/
def execInsw (s : State) : Host.Outcome State Fault Refusal := .next (s.repeated false State.ins16)

/-- OUTSB (R248). -/
def execOutsb (s : State) : Host.Outcome State Fault Refusal := .next (s.repeated false State.outs8)

/-- OUTSW (R248). -/
def execOutsw (s : State) : Host.Outcome State Fault Refusal := .next (s.repeated false State.outs16)

/-- MOVSB (R242). -/
def execMovsb (s : State) : Host.Outcome State Fault Refusal := .next (s.repeated false State.movs8)

/-- MOVSW (R242). -/
def execMovsw (s : State) : Host.Outcome State Fault Refusal := .next (s.repeated false State.movs16)

/-- CMPSB (R243). -/
def execCmpsb (s : State) : Host.Outcome State Fault Refusal := .next (s.repeated true State.cmps8)

/-- CMPSW (R243). -/
def execCmpsw (s : State) : Host.Outcome State Fault Refusal := .next (s.repeated true State.cmps16)

/-- STOSB (R246). -/
def execStosb (s : State) : Host.Outcome State Fault Refusal := .next (s.repeated false State.stos8)

/-- STOSW (R246). -/
def execStosw (s : State) : Host.Outcome State Fault Refusal := .next (s.repeated false State.stos16)

/-- LODSB (R245). -/
def execLodsb (s : State) : Host.Outcome State Fault Refusal := .next (s.repeated false State.lods8)

/-- LODSW (R245). -/
def execLodsw (s : State) : Host.Outcome State Fault Refusal := .next (s.repeated false State.lods16)

/-- SCASB (R244). -/
def execScasb (s : State) : Host.Outcome State Fault Refusal := .next (s.repeated true State.scas8)

/-- SCASW (R244). -/
def execScasw (s : State) : Host.Outcome State Fault Refusal := .next (s.repeated true State.scas16)

/-- The byte F3H: REP, REPE, REPZ for the string instruction it stands before (R241). -/
def execRep (s : State) : Host.Outcome State Fault Refusal :=
  .next (s.setLatches { s.latches with rep := some .repe })

/-- The byte F2H: REPNE, REPNZ for the string instruction it stands before (R241). -/
def execRepne (s : State) : Host.Outcome State Fault Refusal :=
  .next (s.setLatches { s.latches with rep := some .repne })

end Sys2Proof.Machine
end

