-- ==== Sys2Proof/Machine/Dispatch.lean ====
section
/-! DEFINITION. The dispatch of every item to its meaning. -/

namespace Sys2Proof.Machine

def exec (i : Instr) (s : State) : Host.Outcome State Fault Refusal :=
  match i with
  | .mov f => Sys2Proof.Machine.execMov f s
  | .movFromSeg e r => Sys2Proof.Machine.execMovFromSeg e r s
  | .movToSeg r e => Sys2Proof.Machine.execMovToSeg r e s
  | .pushReg r => Sys2Proof.Machine.execPushReg r s
  | .pushRm e => Sys2Proof.Machine.execPushRm e s
  | .pushSeg r => Sys2Proof.Machine.execPushSeg r s
  | .pushImm f => Sys2Proof.Machine.execPushImm f s
  | .popReg r => Sys2Proof.Machine.execPopReg r s
  | .popRm e => Sys2Proof.Machine.execPopRm e s
  | .popSeg r => Sys2Proof.Machine.execPopSeg r s
  | .pusha => Sys2Proof.Machine.execPusha s
  | .popa => Sys2Proof.Machine.execPopa s
  | .pushf => Sys2Proof.Machine.execPushf s
  | .popf => Sys2Proof.Machine.execPopf s
  | .xchg f => Sys2Proof.Machine.execXchg f s
  | .xlat => Sys2Proof.Machine.execXlat s
  | .inAcc f => Sys2Proof.Machine.execInAcc f s
  | .outAcc f => Sys2Proof.Machine.execOutAcc f s
  | .lea g m => Sys2Proof.Machine.execLea g m s
  | .lds g m => Sys2Proof.Machine.execLds g m s
  | .les g m => Sys2Proof.Machine.execLes g m s
  | .lahf => Sys2Proof.Machine.execLahf s
  | .sahf => Sys2Proof.Machine.execSahf s
  | .add f => Sys2Proof.Machine.execAdd f s
  | .adc f => Sys2Proof.Machine.execAdc f s
  | .sub f => Sys2Proof.Machine.execSub f s
  | .sbb f => Sys2Proof.Machine.execSbb f s
  | .cmp f => Sys2Proof.Machine.execCmp f s
  | .inc f => Sys2Proof.Machine.execInc f s
  | .dec f => Sys2Proof.Machine.execDec f s
  | .neg f => Sys2Proof.Machine.execNeg f s
  | .mul f => Sys2Proof.Machine.execMul f s
  | .imul f => Sys2Proof.Machine.execImul f s
  | .imulImm g e f => Sys2Proof.Machine.execImulImm g e f s
  | .div f => Sys2Proof.Machine.execDiv f s
  | .idiv f => Sys2Proof.Machine.execIdiv f s
  | .aaa => Sys2Proof.Machine.execAaa s
  | .aas => Sys2Proof.Machine.execAas s
  | .aam => Sys2Proof.Machine.execAam s
  | .aad => Sys2Proof.Machine.execAad s
  | .daa => Sys2Proof.Machine.execDaa s
  | .das => Sys2Proof.Machine.execDas s
  | .cbw => Sys2Proof.Machine.execCbw s
  | .cwd => Sys2Proof.Machine.execCwd s
  | .not f => Sys2Proof.Machine.execNot f s
  | .and f => Sys2Proof.Machine.execAnd f s
  | .or f => Sys2Proof.Machine.execOr f s
  | .xor f => Sys2Proof.Machine.execXor f s
  | .test f => Sys2Proof.Machine.execTest f s
  | .shl f c => Sys2Proof.Machine.execShl f c s
  | .shr f c => Sys2Proof.Machine.execShr f c s
  | .sar f c => Sys2Proof.Machine.execSar f c s
  | .rol f c => Sys2Proof.Machine.execRol f c s
  | .ror f c => Sys2Proof.Machine.execRor f c s
  | .rcl f c => Sys2Proof.Machine.execRcl f c s
  | .rcr f c => Sys2Proof.Machine.execRcr f c s
  | .insb => Sys2Proof.Machine.execInsb s
  | .insw => Sys2Proof.Machine.execInsw s
  | .outsb => Sys2Proof.Machine.execOutsb s
  | .outsw => Sys2Proof.Machine.execOutsw s
  | .movsb => Sys2Proof.Machine.execMovsb s
  | .movsw => Sys2Proof.Machine.execMovsw s
  | .cmpsb => Sys2Proof.Machine.execCmpsb s
  | .cmpsw => Sys2Proof.Machine.execCmpsw s
  | .stosb => Sys2Proof.Machine.execStosb s
  | .stosw => Sys2Proof.Machine.execStosw s
  | .lodsb => Sys2Proof.Machine.execLodsb s
  | .lodsw => Sys2Proof.Machine.execLodsw s
  | .scasb => Sys2Proof.Machine.execScasb s
  | .scasw => Sys2Proof.Machine.execScasw s
  | .rep => Sys2Proof.Machine.execRep s
  | .repne => Sys2Proof.Machine.execRepne s
  | .callNear rel => Sys2Proof.Machine.execCallNear rel s
  | .callInd e => Sys2Proof.Machine.execCallInd e s
  | .callFar off seg => Sys2Proof.Machine.execCallFar off seg s
  | .callFarInd m => Sys2Proof.Machine.execCallFarInd m s
  | .retNear pop => Sys2Proof.Machine.execRetNear pop s
  | .retFar pop => Sys2Proof.Machine.execRetFar pop s
  | .jmpShort rel => Sys2Proof.Machine.execJmpShort rel s
  | .jmpNear rel => Sys2Proof.Machine.execJmpNear rel s
  | .jmpInd e => Sys2Proof.Machine.execJmpInd e s
  | .jmpFar off seg => Sys2Proof.Machine.execJmpFar off seg s
  | .jmpFarInd m => Sys2Proof.Machine.execJmpFarInd m s
  | .jo rel => Sys2Proof.Machine.execJo rel s
  | .jno rel => Sys2Proof.Machine.execJno rel s
  | .jb rel => Sys2Proof.Machine.execJb rel s
  | .jc rel => Sys2Proof.Machine.execJc rel s
  | .jae rel => Sys2Proof.Machine.execJae rel s
  | .jnc rel => Sys2Proof.Machine.execJnc rel s
  | .je rel => Sys2Proof.Machine.execJe rel s
  | .jne rel => Sys2Proof.Machine.execJne rel s
  | .jbe rel => Sys2Proof.Machine.execJbe rel s
  | .ja rel => Sys2Proof.Machine.execJa rel s
  | .js rel => Sys2Proof.Machine.execJs rel s
  | .jns rel => Sys2Proof.Machine.execJns rel s
  | .jp rel => Sys2Proof.Machine.execJp rel s
  | .jnp rel => Sys2Proof.Machine.execJnp rel s
  | .jl rel => Sys2Proof.Machine.execJl rel s
  | .jge rel => Sys2Proof.Machine.execJge rel s
  | .jle rel => Sys2Proof.Machine.execJle rel s
  | .jg rel => Sys2Proof.Machine.execJg rel s
  | .jcxz rel => Sys2Proof.Machine.execJcxz rel s
  | .loop rel => Sys2Proof.Machine.execLoop rel s
  | .loope rel => Sys2Proof.Machine.execLoope rel s
  | .loopne rel => Sys2Proof.Machine.execLoopne rel s
  | .int n => Sys2Proof.Machine.execInt n s
  | .int3 => Sys2Proof.Machine.execInt3 s
  | .into => Sys2Proof.Machine.execInto s
  | .iret => Sys2Proof.Machine.execIret s
  | .bound g m => Sys2Proof.Machine.execBound g m s
  | .enter locals level => Sys2Proof.Machine.execEnter locals level s
  | .leave => Sys2Proof.Machine.execLeave s
  | .clc => Sys2Proof.Machine.execClc s
  | .stc => Sys2Proof.Machine.execStc s
  | .cmc => Sys2Proof.Machine.execCmc s
  | .cld => Sys2Proof.Machine.execCld s
  | .std => Sys2Proof.Machine.execStd s
  | .cli => Sys2Proof.Machine.execCli s
  | .sti => Sys2Proof.Machine.execSti s
  | .hlt => Sys2Proof.Machine.execHlt s
  | .wait => Sys2Proof.Machine.execWait s
  | .esc op e => Sys2Proof.Machine.execEsc op e s
  | .nop => Sys2Proof.Machine.execNop s
  | .lock => Sys2Proof.Machine.execLock s
  | .segEs => Sys2Proof.Machine.execSegEs s
  | .segCs => Sys2Proof.Machine.execSegCs s
  | .segSs => Sys2Proof.Machine.execSegSs s
  | .segDs => Sys2Proof.Machine.execSegDs s
  | .unused u => Sys2Proof.Machine.execUnused u s

end Sys2Proof.Machine
end

