-- ==== Sys2Proof/Machine/Interrupts.lean ====
section
/-! DEFINITION. External interrupts, the single-step interrupt, the reset event and the environment's inputs
(60_exceptions.md R352 to R363, 70_reset_and_hazards.md R380). -/

namespace Sys2Proof.Machine

/-- The maskable request: the INTR line is active, IF = 1 and nothing is inhibited (60_exceptions.md R355). -/
def State.maskableRequest (s : State) : Option Byte :=
  if s.flags.ifl && decide (s.inhibit = .none) then s.env.intrLine else none

/-- What is recognised at a recognition point: nothing under `inhibit = all`; else NMI, type 2; else the maskable
request (60_exceptions.md R358). -/
def State.request (s : State) : Option Byte :=
  if s.inhibit = .all then none
  else if s.env.nmiPending then some 2
  else s.maskableRequest

/-- Recognising NMI clears its latch (60_exceptions.md R354); the INTR line is a level and stays (R355). -/
def State.acknowledge (s : State) : State := s.setEnv { s.env with nmiPending := false }

/-- The sequence of a recognised external interrupt: the return offset is that of the next instruction to execute
(60_exceptions.md R346). NMI goes before the maskable request, so whenever its latch is set it is NMI that is taken. -/
def State.takeExternal (s : State) (n : Byte) : State := s.acknowledge.interrupt n s.ip

/-- The type 1 sequence after an instruction that began with TF = 1 (60_exceptions.md R352). -/
def State.trapStep (s : State) : State := s.interrupt 1 s.ip

/-- The single-step interrupt, and the external request of the same boundary before it if `intPriority` says so
(60_exceptions.md R360 item 5; log 16). -/
def State.singleStep (s : State) : State :=
  match s.request with
  | none => s.trapStep
  | some n =>
    match Config.intPriority with
    | .stepFirst => s.trapStep
    | .externalFirst => (s.takeExternal n).trapStep

/-- The environment's next input, at the instruction boundary (00_scope.md R19; log 5): an edge sets the NMI latch, the
lines take their new levels. -/
def State.advanceEnv (s : State) : State :=
  match s.env.inputs with
  | [] => s
  | i :: rest =>
    s.setEnv
      { s.env with
        nmiPending := s.env.nmiPending || i.nmi, intrLine := i.intr, testLine := i.test, resetLine := i.reset,
        inputs := rest }

/-- The reset event: the state of 70_reset_and_hazards.md R381; memory keeps its content (R380; log 29). -/
def State.resetEvent (s : State) : State :=
  { State.reset with
    mem := s.mem, devices := s.devices, env := { s.env with nmiPending := false }, draws := s.draws }

end Sys2Proof.Machine
end

