-- ==== Sys2Proof/Machine/Cycle.lean ====
section
/-! DEFINITION. One instruction: its bytes fetched at CS:IP and decoded, its items run, and what happens at its end
(00_scope.md R19). -/

namespace Sys2Proof.Machine

/-! ### Fetch (10_state.md R25 to R27, 30_encoding.md R90, 20_memory.md R80) -/

/-- The bytes at CS:IP, as many as the longest instruction has. -/
def State.fetchWindow (s : State) : List Byte := (s.fetchBytes s.seg.cs s.ip 0 maxInstructionBytes).1

/-- One of the `n` bytes at CS:IP was stored to since the last control transfer (20_memory.md R80; log 18). -/
def State.staleFetch (s : State) (n : Nat) : Bool :=
  (List.range n).any fun k => s.stored.contains (byteAddr s.seg.cs s.ip k)

/-- The state in which an instruction of `n` bytes runs: its bytes have been read, IP is the offset of the next
instruction (10_state.md R26), its latches are fresh, and the inhibit of the instruction before it has been consulted
and is over (60_exceptions.md R359; that the first iteration of a repeated string instruction, or the first pass of a
WAIT that does not complete, ends it is DEDUCED: logs 25, 33). -/
def State.begin (s : State) (n : Nat) : State :=
  ((((s.fetchBytes s.seg.cs s.ip 0 n).2.setIp (s.ip + BitVec.ofNat 16 n)).setInhibit .none).setLatches
    { Latches.idle with start := s.ip })

/-- The instruction at CS:IP, and the state in which it runs. -/
def State.fetch (s : State) : Except Refusal (List Instr × State) :=
  match decodeInstruction s.fetchWindow with
  | .error e => .error (.undecodable e)
  | .ok d => if s.staleFetch d.length then .error .staleCode else .ok (d.items, s.begin d.length)

/-! ### Execution -/

/-- The items of an instruction, its prefixes first. -/
def runItems : List Instr → State → Host.Outcome State Fault Refusal
  | [], s => .next s
  | i :: rest, s =>
    match exec i s with
    | .next t => runItems rest t
    | .fault r => .fault r
    | .refused r => .refused r

/-- The instruction is a WAIT that does not complete (45_processor_control.md R328). -/
def State.waiting (s : State) (items : List Instr) : Bool :=
  decide (items.getLast? = some .wait) && !s.env.testLine

/-- The end of an instruction: no latch survives it (10_state.md R39), the environment's next input arrives, and if it
was stepped the single-step interrupt follows, unless a load of a segment register holds it off (60_exceptions.md R352,
R359) or that input activates the RESET line, which comes before every interrupt (70_reset_and_hazards.md R380). -/
def State.endInstruction (s : State) (stepped : Bool) : State :=
  let t := (s.setLatches Latches.idle).advanceEnv
  if stepped && decide (s.inhibit ≠ .all) && !t.env.resetLine then t.singleStep else t

/-- An instruction is stepped if TF was 1 when it began; a WAIT that does not complete is not (log 24). -/
def State.stepsAfter (s : State) (items : List Instr) : Bool := s.flags.tf && !s.waiting items

/-- One instruction. -/
def State.instructionStep (s : State) : Host.Outcome State Fault Refusal :=
  match s.fetch with
  | .error r => .refused r
  | .ok (items, b) =>
    match runItems items b with
    | .next t => .next (t.endInstruction (b.stepsAfter items))
    | .fault r => .fault r
    | .refused r => .refused r

/-! ### Placing an instruction -/

/-- Store bytes at CS:IP and on, in memory itself. -/
def placeBytes (seg off : Word) : Nat → List Byte → Memory → Memory
  | _, [], m => m
  | k, b :: rest, m => placeBytes seg off (k + 1) rest (Memory.write m (byteAddr seg off k) b)

/-- The address holds a byte of the longest instruction at CS:IP. -/
def State.fetchesFrom (s : State) (a : Nat) : Bool :=
  (List.range maxInstructionBytes).any fun k => byteAddr s.seg.cs s.ip k == a

/-- A device window that an instruction byte at CS:IP would be read from. -/
def State.fetchesFromWindow (s : State) (w : Window) : Bool :=
  (List.range maxInstructionBytes).any fun k => w.contains (byteAddr s.seg.cs s.ip k)

/-- The state whose very next step runs the instruction whose bytes are given: they stand at CS:IP as plain memory and
are not stale, and nothing that goes before an instruction (reset, an interrupt, the halt state) stands before it
(log 22). -/
def State.withFetchBytes (s : State) (bs : List Byte) : State :=
  { s with
    mem := placeBytes s.seg.cs s.ip 0 bs s.mem
    stored := s.stored.filter fun a => !s.fetchesFrom a
    devices := s.devices.filter fun w => !s.fetchesFromWindow w
    halted := false
    env := { s.env with nmiPending := false, intrLine := none, resetLine := false } }

end Sys2Proof.Machine
end

