-- ==== Sys2Proof/Machine/Step.lean ====
section
/-! DEFINITION. One step of the machine (00_scope.md R19). -/

namespace Sys2Proof.Machine

/-- One step: the reset event; else a recognised external interrupt; else nothing, if the core is halted; else one
instruction. The environment's next input arrives at the end (00_scope.md R19, 60_exceptions.md R358,
45_processor_control.md R326, 70_reset_and_hazards.md R380). A recognised interrupt comes before the fetch also where a
repeated string instruction with CX = 0 stands at CS:IP (DEDUCED: log 32). -/
def step (s : State) : Host.Outcome State Fault Refusal :=
  if s.env.resetLine then .next s.resetEvent.advanceEnv
  else
    match s.request with
    | some n => .next (s.takeExternal n).advanceEnv
    | none => if s.halted then .next s.advanceEnv else s.instructionStep

/-- The state with the instruction of a table word where the next step fetches it (log 22). -/
def State.withFetchWord (s : State) (nbits w : Nat) : State := s.withFetchBytes (tableInstructionBytes nbits w)

end Sys2Proof.Machine
end

