-- ==== Sys2Proof/Safety.lean ====
section
/-! DEFINITION. The terms claims use: the well-formed states, how a run ends (70_reset_and_hazards.md R392), a safe run,
and what an instruction leaves unchanged. -/

namespace Sys2Proof.Machine

/-! ### States between steps, and runs -/

/-- What holds of a state between two steps: memory is in canonical form, no latch of an instruction is left
(10_state.md R39), the bytes that may be stale are bytes of memory, and a halted core is not inhibited
(60_exceptions.md R359). -/
def State.wf (s : State) : Prop :=
  Memory.wf s.mem = true ∧ s.latches = Latches.idle ∧ (∀ a ∈ s.stored, a < memorySize)
    ∧ (s.halted = true → s.inhibit = .none)

/-- None of the `n` bytes at CS:IP was stored to since the last control transfer (20_memory.md R80). -/
def State.freshFetch (s : State) (n : Nat) : Prop := ∀ k, k < n → byteAddr s.seg.cs s.ip k ∉ s.stored

/-- The address lies in a device window (20_memory.md R73, R79). -/
def State.inWindow (s : State) (a : Nat) : Prop := ∃ w ∈ s.devices, w.base ≤ a ∧ a < w.base + w.size

/-- A final state (R392 (a)): halted, IF = 0 and no NMI pending. -/
def State.final (s : State) : Prop := s.halted = true ∧ s.flags.ifl = false ∧ s.env.nmiPending = false

/-- Halted and waiting (R392 (b)). -/
def State.haltedWaiting (s : State) : Prop := s.halted = true ∧ s.flags.ifl = true

/-- The environment delivers no NMI and no RESET any more (R392 (a)). -/
def Env.quiet (e : Env) : Prop :=
  e.nmiPending = false ∧ e.resetLine = false ∧ ∀ i ∈ e.inputs, i.nmi = false ∧ i.reset = false

/-- A run of `n` steps from `s` meets no fault and no refusal, and ends in `t`. -/
def runsTo (s : State) (n : Nat) (t : State) : Prop := Sys2Proof.core.run n s = .next t

/-- Every run from `s` goes on: no fault and no refusal is met (R392 (c)). -/
def State.safe (s : State) : Prop := ∀ n, ∃ t, runsTo s n t

/-! ### Frames: what two states have in common -/

/-- The environment's lines and its coming inputs are as before. -/
def sameLines (s t : State) : Prop :=
  t.env.nmiPending = s.env.nmiPending ∧ t.env.intrLine = s.env.intrLine ∧ t.env.testLine = s.env.testLine
    ∧ t.env.resetLine = s.env.resetLine ∧ t.env.inputs = s.env.inputs

/-- The halt state, the latches, the device windows and the environment's lines are as before. -/
def sameControl (s t : State) : Prop :=
  t.halted = s.halted ∧ t.latches = s.latches ∧ t.devices = s.devices ∧ sameLines s t

/-- Beside `sameControl`, the segment registers, IP and the inhibit are as before. -/
def sameRest (s t : State) : Prop :=
  t.seg = s.seg ∧ t.ip = s.ip ∧ t.inhibit = s.inhibit ∧ sameControl s t

/-- Every 16-bit register is as before but those listed. -/
def gprKept (s t : State) (written : List Reg16) : Prop := ∀ r, r ∉ written → t.reg16 r = s.reg16 r

/-- Every byte of memory reads as before. -/
def memKept (s t : State) : Prop := ∀ x, Memory.read t.mem x = Memory.read s.mem x

/-- The byte `v` has been stored at `seg:off`, if that is plain memory; every other byte of memory reads as before. -/
def storedByte (s t : State) (seg off : Word) (v : Byte) : Prop :=
  ∀ x, Memory.read t.mem x =
    if s.isDevice x then Memory.read s.mem x
    else if x = byteAddr seg off 0 then v
    else Memory.read s.mem x

/-- The word `v` has been stored at `seg:off`, each byte that is plain memory; every other byte of memory reads as
before. -/
def storedWord (s t : State) (seg off : Word) (v : Word) : Prop :=
  ∀ x, Memory.read t.mem x =
    if s.isDevice x then Memory.read s.mem x
    else if x = byteAddr seg off 1 then hiByte v
    else if x = byteAddr seg off 0 then loByte v
    else Memory.read s.mem x

/-- The operand at `l` holds `v` now, and no other register and no other byte of memory has changed. -/
def wrote8 (s t : State) (l : Loc Reg8) (v : Byte) : Prop :=
  match l with
  | .reg r => (∀ q, t.reg8 q = if q = r then v else s.reg8 q) ∧ gprKept s t [wholeOf r] ∧ memKept s t
  | .mem seg off => t.gpr = s.gpr ∧ storedByte s t seg off v

/-- The operand at `l` holds `v` now, and no other register and no other byte of memory has changed. -/
def wrote16 (s t : State) (l : Loc Reg16) (v : Word) : Prop :=
  match l with
  | .reg r => (∀ q, t.reg16 q = if q = r then v else s.reg16 q) ∧ memKept s t
  | .mem seg off => t.gpr = s.gpr ∧ storedWord s t seg off v

/-- `push16(v)` from `s` to `t` (20_memory.md R82): SP is 2 lower, the word is stored at SS:SP, nothing else of the
registers and of memory has changed. -/
def pushed (s t : State) (v : Word) : Prop :=
  t.gpr = { s.gpr with sp := s.gpr.sp - 2 } ∧ storedWord s t s.seg.ss (s.gpr.sp - 2) v

/-- The control flags are as before. -/
def controlFlagsKept (f g : Flags) : Prop := g.tf = f.tf ∧ g.ifl = f.ifl ∧ g.df = f.df

/-- The two bytes of a word at `seg:off`. -/
def wordBytes (seg off : Word) : List Nat := [byteAddr seg off 0, byteAddr seg off 1]

/-- The six bytes of an interrupt frame (60_exceptions.md R345): the words at SS:SP-2, SS:SP-4 and SS:SP-6. -/
def State.frameBytes (s : State) : List Nat :=
  [byteAddr s.seg.ss (s.gpr.sp - 2) 0, byteAddr s.seg.ss (s.gpr.sp - 2) 1,
   byteAddr s.seg.ss (s.gpr.sp - 4) 0, byteAddr s.seg.ss (s.gpr.sp - 4) 1,
   byteAddr s.seg.ss (s.gpr.sp - 6) 0, byteAddr s.seg.ss (s.gpr.sp - 6) 1]

/-- The four bytes of interrupt pointer `n`: physical addresses n × 4 to n × 4 + 3 (60_exceptions.md R347). -/
def vectorBytes (n : Byte) : List Nat := [n.toNat * 4, n.toNat * 4 + 1, n.toNat * 4 + 2, n.toNat * 4 + 3]

/-- The word of plain memory whose low byte is at a physical address. -/
def wordAt (m : Memory) (lo hi : Nat) : Word := wordOf (Memory.read m lo) (Memory.read m hi)

/-! ### Operand values (40_data_transfer.md R130, 41_arithmetic.md R170) -/

/-- The destination, its value `a`, and the source value `b`, at the width of the form. -/
inductive Operands where
  | byte (dst : Loc Reg8) (a b : Byte)
  | word (dst : Loc Reg16) (a b : Word)

/-- The table of R170. -/
def aluOperands (s : State) : AluForm → Operands
  | .ebGb e g => .byte (s.loc e) (s.read8 (s.loc e)).1 (s.reg8 g)
  | .evGv e g => .word (s.loc e) (s.read16 (s.loc e)).1 (s.reg16 g)
  | .gbEb g e => .byte (.reg g) (s.reg8 g) (s.read8 (s.loc e)).1
  | .gvEv g e => .word (.reg g) (s.reg16 g) (s.read16 (s.loc e)).1
  | .alIb imm => .byte (.reg .al) (s.reg8 .al) imm
  | .axIw imm => .word (.reg .ax) (s.reg16 .ax) imm
  | .ebIb _ e imm => .byte (s.loc e) (s.read8 (s.loc e)).1 imm
  | .evIw e imm => .word (s.loc e) (s.read16 (s.loc e)).1 imm
  | .evIs e imm => .word (s.loc e) (s.read16 (s.loc e)).1 (imm.signExtend 16)

/-- The encodings of R170: opcode base to base + 5, and group 1 with its digit (30_encoding.md R104, R106). -/
def aluBytes (base : Byte) (digit : BitVec 3) : AluForm → List Byte
  | .ebGb e g => base :: encodeEb g.toBits e
  | .evGv e g => (base + 1) :: encodeEv g.toBits e
  | .gbEb g e => (base + 2) :: encodeEb g.toBits e
  | .gvEv g e => (base + 3) :: encodeEv g.toBits e
  | .alIb imm => [base + 4, imm]
  | .axIw imm => [base + 5, loByte imm, hiByte imm]
  | .ebIb opc82 e imm => (if opc82 then 0x82 else 0x80) :: (encodeEb digit e ++ [imm])
  | .evIw e imm => 0x81 :: (encodeEv digit e ++ [loByte imm, hiByte imm])
  | .evIs e imm => 0x83 :: (encodeEv digit e ++ [imm])

/-- The encodings of INC and DEC: opcode base + r, and FEH and FFH with the digit (41_arithmetic.md R173, R176). -/
def incBytes (base : Byte) (digit : BitVec 3) : IncForm → List Byte
  | .reg r => [base + r.toBits.setWidth 8]
  | .eb e => 0xFE :: encodeEb digit e
  | .ev e => 0xFF :: encodeEv digit e

/-- The operands of TEST (42_logic_shift.md R215). -/
def testOperands (s : State) : TestForm → Operands
  | .ebGb e g => .byte (s.loc e) (s.read8 (s.loc e)).1 (s.reg8 g)
  | .evGv e g => .word (s.loc e) (s.read16 (s.loc e)).1 (s.reg16 g)
  | .alIb imm => .byte (.reg .al) (s.reg8 .al) imm
  | .axIw imm => .word (.reg .ax) (s.reg16 .ax) imm
  | .ebIb e imm => .byte (s.loc e) (s.read8 (s.loc e)).1 imm
  | .evIw e imm => .word (s.loc e) (s.read16 (s.loc e)).1 imm

/-- A place and a value: an operand and what it holds, or a destination and what it receives. -/
inductive Operand where
  | byte (dst : Loc Reg8) (a : Byte)
  | word (dst : Loc Reg16) (a : Word)

def rmOperand (s : State) : RmForm → Operand
  | .eb e => .byte (s.loc e) (s.read8 (s.loc e)).1
  | .ev e => .word (s.loc e) (s.read16 (s.loc e)).1

def incOperand (s : State) : IncForm → Operand
  | .reg r => .word (.reg r) (s.reg16 r)
  | .eb e => .byte (s.loc e) (s.read8 (s.loc e)).1
  | .ev e => .word (s.loc e) (s.read16 (s.loc e)).1

/-- The destination of a MOV and the value it receives (40_data_transfer.md R131). -/
def movOperand (s : State) : MovForm → Operand
  | .ebGb e g => .byte (s.loc e) (s.reg8 g)
  | .evGv e g => .word (s.loc e) (s.reg16 g)
  | .gbEb g e => .byte (.reg g) (s.read8 (s.loc e)).1
  | .gvEv g e => .word (.reg g) (s.read16 (s.loc e)).1
  | .alOb off => .byte (.reg .al) (s.read8 (.mem (s.overridden .ds) off)).1
  | .axOv off => .word (.reg .ax) (s.read16 (.mem (s.overridden .ds) off)).1
  | .obAl off => .byte (.mem (s.overridden .ds) off) (s.reg8 .al)
  | .ovAx off => .word (.mem (s.overridden .ds) off) (s.reg16 .ax)
  | .gbIb g imm => .byte (.reg g) imm
  | .gvIw g imm => .word (.reg g) imm
  | .ebIb e imm => .byte (s.loc e) imm
  | .evIw e imm => .word (s.loc e) imm

/-- The operand's value has been written, and nothing else of the registers and of memory (`wrote8`, `wrote16`). -/
def wrote (s t : State) : Operand → Prop
  | .byte dst v => wrote8 s t dst v
  | .word dst v => wrote16 s t dst v

/-- The word of plain memory at `seg:off`. -/
def State.plainWord (s : State) (seg off : Word) : Word :=
  wordAt s.mem (byteAddr seg off 0) (byteAddr seg off 1)

/-- The sum of an addressing mode's base registers and displacement, before it is reduced to 16 bits
(30_encoding.md R100). -/
def addressSum (s : State) : Mem → Int
  | .base b => baseSum b
  | .direct off => off.toNat
  | .disp8 b d => baseSum b + d.toInt
  | .disp16 b d => baseSum b + d.toNat
where
  /-- The base column of the table of R100. -/
  baseSum : Base → Int
    | .bxSi => s.gpr.bx.toNat + s.gpr.si.toNat
    | .bxDi => s.gpr.bx.toNat + s.gpr.di.toNat
    | .bpSi => s.gpr.bp.toNat + s.gpr.si.toNat
    | .bpDi => s.gpr.bp.toNat + s.gpr.di.toNat
    | .si => s.gpr.si.toNat
    | .di => s.gpr.di.toNat
    | .bp => s.gpr.bp.toNat
    | .bx => s.gpr.bx.toNat

/-- The operand at `l` and the register `g` have changed places; the operand held `v` (40_data_transfer.md R140). -/
def exchanged8 (s t : State) (l : Loc Reg8) (g : Reg8) (v : Byte) : Prop :=
  match l with
  | .reg r =>
    (∀ q, t.reg8 q = if q = g then s.reg8 r else if q = r then s.reg8 g else s.reg8 q)
      ∧ gprKept s t [wholeOf g, wholeOf r] ∧ memKept s t
  | .mem seg off =>
    (∀ q, t.reg8 q = if q = g then v else s.reg8 q) ∧ gprKept s t [wholeOf g] ∧ storedByte s t seg off (s.reg8 g)

/-- The operand at `l` and the register `g` have changed places; the operand held `v` (40_data_transfer.md R140). -/
def exchanged16 (s t : State) (l : Loc Reg16) (g : Reg16) (v : Word) : Prop :=
  match l with
  | .reg r =>
    (∀ q, t.reg16 q = if q = g then s.reg16 r else if q = r then s.reg16 g else s.reg16 q) ∧ memKept s t
  | .mem seg off => (∀ q, t.reg16 q = if q = g then v else s.reg16 q) ∧ storedWord s t seg off (s.reg16 g)

/-- The two words of a doubleword operand of plain memory: at EA and at EA + 2 (20_memory.md R65). -/
def State.plainPointer (s : State) (m : Mem) : Word × Word :=
  (s.plainWord (s.segRm m) (s.ea m), s.plainWord (s.segRm m) (s.ea m + 2))

/-! ### Flags by their definitions (00_scope.md R13) -/

/-- The low eight bits hold an even number of 1 bits. -/
def evenParity {w : Nat} (r : BitVec w) : Bool := ((List.range 8).countP fun k => r.getLsbD k) % 2 == 0

/-- ZF, SF and PF are those of the result `r`. -/
def resultFlags {w : Nat} (g : Flags) (r : BitVec w) : Prop :=
  g.zf = decide (r = 0) ∧ g.sf = r.msb ∧ g.pf = evenParity r

/-- The result of an addition with carry-in `c`. -/
def sumOf {w : Nat} (a b : BitVec w) (c : Bool) : BitVec w := BitVec.ofNat w (a.toNat + b.toNat + c.toNat)

/-- The result of a subtraction with borrow-in `c`. -/
def differenceOf {w : Nat} (a b : BitVec w) (c : Bool) : BitVec w :=
  BitVec.ofInt w ((a.toNat : Int) - b.toNat - c.toNat)

/-- AF, OF, ZF, SF and PF of `a + b + c`, OF by the signs of the operands and of the result. -/
def addFlagsButCf {w : Nat} (g : Flags) (a b : BitVec w) (c : Bool) : Prop :=
  g.af = decide (16 ≤ a.toNat % 16 + b.toNat % 16 + c.toNat)
    ∧ g.ofl = ((a.msb == b.msb) && ((sumOf a b c).msb != a.msb)) ∧ resultFlags g (sumOf a b c)

/-- AF, OF, ZF, SF and PF of `a - b - c`, OF by the signs of the operands and of the result. -/
def subFlagsButCf {w : Nat} (g : Flags) (a b : BitVec w) (c : Bool) : Prop :=
  g.af = decide (a.toNat % 16 < b.toNat % 16 + c.toNat)
    ∧ g.ofl = ((a.msb != b.msb) && ((differenceOf a b c).msb != a.msb)) ∧ resultFlags g (differenceOf a b c)

/-- The flags `g` after an addition that found the flags `f`. -/
def addFlags {w : Nat} (f g : Flags) (a b : BitVec w) (c : Bool) : Prop :=
  g.cf = decide (2 ^ w ≤ a.toNat + b.toNat + c.toNat) ∧ addFlagsButCf g a b c ∧ controlFlagsKept f g

/-- The flags `g` after a subtraction that found the flags `f`. -/
def subFlags {w : Nat} (f g : Flags) (a b : BitVec w) (c : Bool) : Prop :=
  g.cf = decide (a.toNat < b.toNat + c.toNat) ∧ subFlagsButCf g a b c ∧ controlFlagsKept f g

/-- The flags `g` after a logical operation with result `r` that found the flags `f` (42_logic_shift.md R210); AF is
open. -/
def logicFlags {w : Nat} (f g : Flags) (r : BitVec w) : Prop :=
  g.cf = false ∧ g.ofl = false ∧ resultFlags g r ∧ controlFlagsKept f g

/-- An addition of the operands with carry-in `c` has taken place from `s` to `t`. -/
def added (s t : State) (c : Bool) : Operands → Prop
  | .byte dst a b => wrote8 s t dst (sumOf a b c) ∧ addFlags s.flags t.flags a b c ∧ sameRest s t
  | .word dst a b => wrote16 s t dst (sumOf a b c) ∧ addFlags s.flags t.flags a b c ∧ sameRest s t

/-- A subtraction of the operands with borrow-in `c` has taken place from `s` to `t`. -/
def subtracted (s t : State) (c : Bool) : Operands → Prop
  | .byte dst a b => wrote8 s t dst (differenceOf a b c) ∧ subFlags s.flags t.flags a b c ∧ sameRest s t
  | .word dst a b => wrote16 s t dst (differenceOf a b c) ∧ subFlags s.flags t.flags a b c ∧ sameRest s t

/-- Nothing of the registers and of memory has been written. -/
def wroteNothing (s t : State) : Prop := t.gpr = s.gpr ∧ memKept s t

/-- The flags of a subtraction of the operands, and nothing else, have been written from `s` to `t`. -/
def compared (s t : State) : Operands → Prop
  | .byte _ a b => wroteNothing s t ∧ subFlags s.flags t.flags a b false ∧ sameRest s t
  | .word _ a b => wroteNothing s t ∧ subFlags s.flags t.flags a b false ∧ sameRest s t

/-- The bitwise operation `op` of the operands has been written with its flags from `s` to `t`. -/
def combined (s t : State) (op : (w : Nat) → BitVec w → BitVec w → BitVec w) : Operands → Prop
  | .byte dst a b => wrote8 s t dst (op 8 a b) ∧ logicFlags s.flags t.flags (op 8 a b) ∧ sameRest s t
  | .word dst a b => wrote16 s t dst (op 16 a b) ∧ logicFlags s.flags t.flags (op 16 a b) ∧ sameRest s t

/-- The flags of the operands' AND, and nothing else, have been written from `s` to `t`. -/
def tested (s t : State) : Operands → Prop
  | .byte _ a b => wroteNothing s t ∧ logicFlags s.flags t.flags (a &&& b) ∧ sameRest s t
  | .word _ a b => wroteNothing s t ∧ logicFlags s.flags t.flags (a &&& b) ∧ sameRest s t

/-- INC of the operand (41_arithmetic.md R173). -/
def incremented (s t : State) : Operand → Prop
  | .byte dst a =>
    wrote8 s t dst (sumOf a 1 false) ∧ addFlagsButCf t.flags a 1 false ∧ t.flags.cf = s.flags.cf
      ∧ controlFlagsKept s.flags t.flags ∧ sameRest s t
  | .word dst a =>
    wrote16 s t dst (sumOf a 1 false) ∧ addFlagsButCf t.flags a 1 false ∧ t.flags.cf = s.flags.cf
      ∧ controlFlagsKept s.flags t.flags ∧ sameRest s t

/-- DEC of the operand (41_arithmetic.md R176). -/
def decremented (s t : State) : Operand → Prop
  | .byte dst a =>
    wrote8 s t dst (differenceOf a 1 false) ∧ subFlagsButCf t.flags a 1 false ∧ t.flags.cf = s.flags.cf
      ∧ controlFlagsKept s.flags t.flags ∧ sameRest s t
  | .word dst a =>
    wrote16 s t dst (differenceOf a 1 false) ∧ subFlagsButCf t.flags a 1 false ∧ t.flags.cf = s.flags.cf
      ∧ controlFlagsKept s.flags t.flags ∧ sameRest s t

/-- NEG of the operand: the subtraction from 0 (41_arithmetic.md R177). -/
def negated (s t : State) : Operand → Prop
  | .byte dst a => wrote8 s t dst (differenceOf 0 a false) ∧ subFlags s.flags t.flags 0 a false ∧ sameRest s t
  | .word dst a => wrote16 s t dst (differenceOf 0 a false) ∧ subFlags s.flags t.flags 0 a false ∧ sameRest s t

/-- NOT of the operand (42_logic_shift.md R211). -/
def inverted (s t : State) : Operand → Prop
  | .byte dst a => wrote8 s t dst (~~~a) ∧ t.flags = s.flags ∧ sameRest s t
  | .word dst a => wrote16 s t dst (~~~a) ∧ t.flags = s.flags ∧ sameRest s t

/-! ### Shifts and rotates as the source's loops (42_logic_shift.md R221 to R227) -/

/-- One turn of SHL's loop: CF takes the high-order bit, the value is doubled. -/
def shlTurn {w : Nat} (x : Shifted w) : Shifted w := { value := x.value + x.value, carry := x.value.msb }

/-- One turn of SHR's loop: CF takes the low-order bit, the value is halved. -/
def shrTurn {w : Nat} (x : Shifted w) : Shifted w :=
  { value := BitVec.ofNat w (x.value.toNat / 2), carry := x.value.getLsbD 0 }

/-- One turn of SAR's loop: CF takes the low-order bit, the signed value is halved toward minus infinity. -/
def sarTurn {w : Nat} (x : Shifted w) : Shifted w :=
  { value := BitVec.ofInt w (x.value.toInt / 2), carry := x.value.getLsbD 0 }

/-- A value with its high-order bit replaced. -/
def withMsb {w : Nat} (v : BitVec w) (b : Bool) : BitVec w :=
  BitVec.ofNat w (v.toNat % 2 ^ (w - 1) + b.toNat * 2 ^ (w - 1))

/-- One turn of ROL's loop: CF takes the high-order bit, which also enters at the bottom. -/
def rolTurn {w : Nat} (x : Shifted w) : Shifted w :=
  { value := BitVec.ofNat w (x.value.toNat * 2 + x.value.msb.toNat), carry := x.value.msb }

/-- One turn of ROR's loop: CF takes the low-order bit, which also enters at the top. -/
def rorTurn {w : Nat} (x : Shifted w) : Shifted w :=
  { value := withMsb (BitVec.ofNat w (x.value.toNat / 2)) (x.value.getLsbD 0), carry := x.value.getLsbD 0 }

/-- One turn of RCL's loop: the old CF enters at the bottom. -/
def rclTurn {w : Nat} (x : Shifted w) : Shifted w :=
  { value := BitVec.ofNat w (x.value.toNat * 2 + x.carry.toNat), carry := x.value.msb }

/-- One turn of RCR's loop: the old CF enters at the top. -/
def rcrTurn {w : Nat} (x : Shifted w) : Shifted w :=
  { value := withMsb (BitVec.ofNat w (x.value.toNat / 2)) x.carry, carry := x.value.getLsbD 0 }

/-- `c` turns of a loop. -/
def turns {α : Type} (turn : α → α) : Nat → α → α
  | 0, x => x
  | c + 1, x => turns turn c (turn x)

/-- The high-order bit of the result differs from CF. -/
def topDiffersFromCarry {w : Nat} (x : Shifted w) : Bool := x.value.msb != x.carry

/-- The two high-order bits of the result differ. -/
def topTwoDiffer {w : Nat} (x : Shifted w) : Bool := x.value.msb != x.value.getLsbD (w - 2)

/-- The flags `g` after a shift by `c` with outcome `x`, where `o` is OF after a shift by 1: SF, ZF and PF by the result
unless the count is 0; AF is open, and OF but for a count of 1 (42_logic_shift.md R220 to R223). -/
def shiftFlags {w : Nat} (g : Flags) (c : Nat) (x : Shifted w) (o : Bool) : Prop :=
  (c ≠ 0 → resultFlags g x.value) ∧ (c = 1 → g.ofl = o)

/-- The flags `g` after a rotate by `c` that found the flags `f`, where `o` is OF after a rotate by 1: AF, PF, SF and ZF
are unchanged (42_logic_shift.md R220, R224 to R227). -/
def rotateFlags (f g : Flags) (c : Nat) (o : Bool) : Prop :=
  g.af = f.af ∧ g.pf = f.pf ∧ g.sf = f.sf ∧ g.zf = f.zf ∧ (c = 1 → g.ofl = o)

/-- The operand after `c` turns of the loop body `turn`, CF as the loop leaves it, what `flags` says of the flags, and
nothing else, has been written from `s` to `t`. -/
def turned (s t : State) (turn : (w : Nat) → Shifted w → Shifted w) (c : Nat)
    (flags : (w : Nat) → Shifted w → Prop) : Operand → Prop
  | .byte dst a =>
    wrote8 s t dst (turns (turn 8) c { value := a, carry := s.flags.cf }).value
      ∧ t.flags.cf = (turns (turn 8) c { value := a, carry := s.flags.cf }).carry
      ∧ flags 8 (turns (turn 8) c { value := a, carry := s.flags.cf })
      ∧ controlFlagsKept s.flags t.flags ∧ sameRest s t
  | .word dst a =>
    wrote16 s t dst (turns (turn 16) c { value := a, carry := s.flags.cf }).value
      ∧ t.flags.cf = (turns (turn 16) c { value := a, carry := s.flags.cf }).carry
      ∧ flags 16 (turns (turn 16) c { value := a, carry := s.flags.cf })
      ∧ controlFlagsKept s.flags t.flags ∧ sameRest s t

/-! ### Sets of instructions -/

/-- The string instructions: whether one compares, and its primitive (43_string.md R242 to R248). -/
def stringPrimitive : Instr → Option (Bool × (State → State))
  | .insb => some (false, State.ins8)
  | .insw => some (false, State.ins16)
  | .outsb => some (false, State.outs8)
  | .outsw => some (false, State.outs16)
  | .movsb => some (false, State.movs8)
  | .movsw => some (false, State.movs16)
  | .cmpsb => some (true, State.cmps8)
  | .cmpsw => some (true, State.cmps16)
  | .stosb => some (false, State.stos8)
  | .stosw => some (false, State.stos16)
  | .lodsb => some (false, State.lods8)
  | .lodsw => some (false, State.lods16)
  | .scasb => some (true, State.scas8)
  | .scasw => some (true, State.scas16)
  | _ => none

/-- The class of a prefix item (30_encoding.md R92, R93). -/
def prefixItem : Instr → Option PrefixClass
  | .segEs => some .segment
  | .segCs => some .segment
  | .segSs => some .segment
  | .segDs => some .segment
  | .rep => some .repetition
  | .repne => some .repetition
  | .lock => some .lock
  | _ => none

/-- The instructions that may write CS: the far transfers, IRET, and those that may enter an interrupt
(10_state.md R35). -/
def mayWriteCs : Instr → Bool
  | .callFar _ _ => true
  | .callFarInd _ => true
  | .retFar _ => true
  | .jmpFar _ _ => true
  | .jmpFarInd _ => true
  | .iret => true
  | .int _ => true
  | .int3 => true
  | .into => true
  | .bound _ _ => true
  | .div _ => true
  | .idiv _ => true
  | .esc _ _ => true
  | _ => false

/-- The instructions that read or write a port. -/
def usesPort : Instr → Bool
  | .inAcc _ => true
  | .outAcc _ => true
  | .insb => true
  | .insw => true
  | .outsb => true
  | .outsw => true
  | _ => false

/-- The names of the flags. -/
inductive FlagName where
  | cf | pf | af | zf | sf | tf | ifl | df | ofl
deriving DecidableEq, Repr

def Flags.flag (f : Flags) : FlagName → Bool
  | .cf => f.cf | .pf => f.pf | .af => f.af | .zf => f.zf | .sf => f.sf
  | .tf => f.tf | .ifl => f.ifl | .df => f.df | .ofl => f.ofl

/-- The six status flags. -/
def statusFlags : List FlagName := [.ofl, .sf, .zf, .af, .pf, .cf]

/-- The flags that an instruction may change: the table of 10_state.md R33, with the IF and TF that ESC clears where it
traps (45_processor_control.md R330). -/
def flagsWritten : Instr → List FlagName
  | .add _ => statusFlags
  | .adc _ => statusFlags
  | .sub _ => statusFlags
  | .sbb _ => statusFlags
  | .cmp _ => statusFlags
  | .cmpsb => statusFlags
  | .cmpsw => statusFlags
  | .scasb => statusFlags
  | .scasw => statusFlags
  | .neg _ => statusFlags
  | .inc _ => [.ofl, .sf, .zf, .af, .pf]
  | .dec _ => [.ofl, .sf, .zf, .af, .pf]
  | .and _ => statusFlags
  | .or _ => statusFlags
  | .xor _ => statusFlags
  | .test _ => statusFlags
  | .shl _ _ => statusFlags
  | .shr _ _ => statusFlags
  | .sar _ _ => statusFlags
  | .rol _ _ => [.ofl, .cf]
  | .ror _ _ => [.ofl, .cf]
  | .rcl _ _ => [.ofl, .cf]
  | .rcr _ _ => [.ofl, .cf]
  | .mul _ => statusFlags
  | .imul _ => statusFlags
  | .imulImm _ _ _ => statusFlags
  | .div _ => [.ofl, .ifl, .tf, .sf, .zf, .af, .pf, .cf]
  | .idiv _ => [.ofl, .ifl, .tf, .sf, .zf, .af, .pf, .cf]
  | .aaa => statusFlags
  | .aas => statusFlags
  | .aam => statusFlags
  | .aad => statusFlags
  | .daa => statusFlags
  | .das => statusFlags
  | .clc => [.cf]
  | .stc => [.cf]
  | .cmc => [.cf]
  | .cld => [.df]
  | .std => [.df]
  | .cli => [.ifl]
  | .sti => [.ifl]
  | .sahf => [.sf, .zf, .af, .pf, .cf]
  | .popf => [.ofl, .df, .ifl, .tf, .sf, .zf, .af, .pf, .cf]
  | .iret => [.ofl, .df, .ifl, .tf, .sf, .zf, .af, .pf, .cf]
  | .int _ => [.ifl, .tf]
  | .int3 => [.ifl, .tf]
  | .into => [.ifl, .tf]
  | .bound _ _ => [.ifl, .tf]
  | .esc _ _ => [.ifl, .tf]
  | _ => []

/-- The sixteen conditional jumps and two further names, each with its opcode byte and its condition
(44_control_transfer.md R280). -/
def conditionOf (f : Flags) (rel : Byte) : List (Byte × Instr × Bool) :=
  [(0x70, .jo rel, f.ofl), (0x71, .jno rel, !f.ofl), (0x72, .jb rel, f.cf), (0x72, .jc rel, f.cf),
   (0x73, .jae rel, !f.cf), (0x73, .jnc rel, !f.cf), (0x74, .je rel, f.zf), (0x75, .jne rel, !f.zf),
   (0x76, .jbe rel, f.cf || f.zf), (0x77, .ja rel, !f.cf && !f.zf)]
  ++ [(0x78, .js rel, f.sf), (0x79, .jns rel, !f.sf), (0x7A, .jp rel, f.pf), (0x7B, .jnp rel, !f.pf),
      (0x7C, .jl rel, f.sf != f.ofl), (0x7D, .jge rel, f.sf == f.ofl), (0x7E, .jle rel, (f.sf != f.ofl) || f.zf),
      (0x7F, .jg rel, (f.sf == f.ofl) && !f.zf)]

/-- What a comparison of `a` with `b` leaves in the flags `g`, read by the conditions of 44_control_transfer.md R280. -/
def orderFlags {w : Nat} (g : Flags) (a b : BitVec w) : Prop :=
  g.zf = decide (a = b) ∧ g.cf = decide (a.toNat < b.toNat) ∧ (g.cf || g.zf) = decide (a.toNat ≤ b.toNat)
    ∧ (g.sf != g.ofl) = decide (a.toInt < b.toInt) ∧ ((g.sf != g.ofl) || g.zf) = decide (a.toInt ≤ b.toInt)

/-- What a failing DIV or IDIV has changed before its interrupt: the status flags and the listed quotient and remainder
registers hold free values, nothing else has changed (41_arithmetic.md R182, 60_exceptions.md R348). -/
def divideFailed (s t : State) (registers : List Reg16) : Prop :=
  gprKept s t registers ∧ controlFlagsKept s.flags t.flags ∧ memKept s t ∧ sameRest s t

/-- The return offset of a divide error or a BOUND failure, by the parameter `faultReturn` (60_exceptions.md R346). -/
def failureReturn (s : State) : Word :=
  match Config.faultReturn with
  | .next => s.ip
  | .faulting => s.latches.start

/-- The packed decimal byte of a number below 100. -/
def packed (n : Nat) : Byte := BitVec.ofNat 8 (n / 10 * 16 + n % 10)

end Sys2Proof.Machine
end

