-- ==== Sys2Proof/Certificates/Slice0/Obligations.lean ====
section
/-! DEFINITION. The statements about the model. `∃ t, exec i s = .next t ∧ …` says that the instruction completes, what it
writes, and what it leaves unchanged; `sameRest`, `wrote`, `pushed` and the other terms are those of Safety.lean. -/

open Sys2Proof Sys2Proof.Machine

/-! ### Encoding and decoding -/

/-- Words written out from 30_encoding.md decode to their instructions, with their lengths. -/
def Obligations.DecodesWordsOfTheEncoding : Prop :=
  decodeInstruction [0xB8, 0x34, 0x12] = .ok { items := [.mov (.gvIw .ax 0x1234)], length := 3 }
    ∧ decodeInstruction [0xC7, 0x86, 0x34, 0x12, 0x78, 0x56]
        = .ok { items := [.mov (.evIw (.mem (.disp16 .bp 0x1234)) 0x5678)], length := 6 }
    ∧ decodeInstruction [0x82, 0xC1, 0x05] = .ok { items := [.add (.ebIb true (.reg .cl) 5)], length := 3 }
    ∧ decodeInstruction [0x83, 0x3E, 0x00, 0x02, 0xFF]
        = .ok { items := [.cmp (.evIs (.mem (.direct 0x0200)) 0xFF)], length := 5 }
    ∧ decodeInstruction [0xF7, 0x78, 0x80] = .ok { items := [.idiv (.ev (.mem (.disp8 .bxSi 0x80)))], length := 3 }
    ∧ decodeInstruction [0xC1, 0xF8, 0x0F] = .ok { items := [.sar (.ev (.reg .ax)) (.imm 0x0F)], length := 3 }
    ∧ decodeInstruction [0x9A, 0x00, 0x00, 0x00, 0x20] = .ok { items := [.callFar 0x0000 0x2000], length := 5 }
    ∧ decodeInstruction [0xC8, 0x04, 0x00, 0x01] = .ok { items := [.enter 4 1], length := 4 }
    ∧ decodeInstruction [0x2E, 0xF3, 0xA4] = .ok { items := [.segCs, .rep, .movsb], length := 3 }
    ∧ decodeInstruction [0xD9, 0x07] = .ok { items := [.esc 8 (.mem (.base .bx))], length := 2 }
    ∧ decodeInstruction [0x8E, 0xC8] = .ok { items := [.unused (.group 0x8E 0xC8)], length := 2 }
    ∧ decodeInstruction [0xD4, 0x0B] = .error .adjustSecondByte

/-- Decoding the encoding of any well-formed item gives the item back, with whatever follows it; JC and JNC come back
under the names JB and JAE of the same words (30_encoding.md R114). That the shared words are read as JB and JAE is
the model's choice (log 20). 68H and 6AH are PUSH immediate and 69H and 6BH IMUL with an immediate by the model's
choice (log 31). -/
def Obligations.DecodeOfEncodeIsTheInstruction : Prop :=
  ∀ (i : Instr) (rest : List Byte), i.wellFormed = true → decodeItem (encode i ++ rest) = .ok (canonical i, rest)

/-- Whatever bytes an item is decoded from are exactly its encoding and what follows, and the item is well-formed. 68H
and 6AH are PUSH immediate and 69H and 6BH IMUL with an immediate by the model's choice (log 31). -/
def Obligations.DecodedBytesAreTheEncoding : Prop :=
  ∀ (bs : List Byte) (i : Instr) (rest : List Byte), decodeItem bs = .ok (i, rest) →
    i.wellFormed = true ∧ bs = encode i ++ rest

/-- The prefix rules of 30_encoding.md R93: prefixes of distinct classes come in any order before the body, a repeat
prefix only before a string instruction, and a second prefix of one class is refused. The refusals are decision D20 of
the spec (log 27). -/
def Obligations.PrefixesPrecedeTheBody : Prop :=
  ∀ (ps : List Instr) (rest : List Byte), (∀ p ∈ ps, (prefixItem p).isSome = true) → (ps.map prefixItem).Nodup →
    (∀ i : Instr, prefixItem i = none → i.wellFormed = true →
      decodeInstruction (ps.flatMap encode ++ encode i ++ rest) =
        if some PrefixClass.repetition ∈ ps.map prefixItem ∧ stringPrimitive i = none then .error .repeatBeforeNonString
        else .ok { items := ps ++ [canonical i], length := (ps.flatMap encode ++ encode i).length })
    ∧ ∀ (q : Instr) (c : PrefixClass), prefixItem q = some c → some c ∈ ps.map prefixItem →
        decodeInstruction (ps.flatMap encode ++ encode q ++ rest) = .error .repeatedPrefix

/-! ### Reset, steps and the end of a run -/

/-- The state after reset, where 10_state.md R40 gives it a value. -/
def Obligations.ResetState : Prop :=
  State.reset.seg = { cs := 0xFFFF, ds := 0, ss := 0, es := 0 } ∧ State.reset.ip = 0
    ∧ phys State.reset.seg.cs State.reset.ip = 0xFFFF0
    ∧ State.reset.flags = { ofl := false, df := false, ifl := false, tf := false, sf := false, zf := false,
                            af := false, pf := false, cf := false }
    ∧ State.reset.halted = false ∧ State.reset.inhibit = .none ∧ State.reset.env.nmiPending = false

/-- The state after reset is well-formed. -/
def Obligations.ResetIsWellFormed : Prop := State.reset.wf

/-- Every step from a well-formed state leads to a well-formed state. The canonical form of memory is the model's (log
2). -/
def Obligations.StepKeepsWellFormed : Prop := ∀ s t : State, s.wf → step s = .next t → t.wf

/-- A step at bytes that decode runs the decoded items in the state that `begin` sets up: IP at the next instruction,
the inhibit of the instruction before over, the latches fresh. When the environment's next input arrives is the
model's choice (log 5); that an inhibit is over after the first iteration or the first pass of a WAIT is its reading
(logs 25, 33). Bytes that the decoder refuses (92 D20, D21; log 27), and an instruction byte stored to since the last
control transfer (20_memory.md R80; log 18), are refused. -/
def Obligations.StepRunsDecodedInstruction : Prop :=
  (∀ s : State, s.env.resetLine = false → s.request = none → s.halted = false →
    (∀ e, decodeInstruction s.fetchWindow = .error e → step s = .refused (.undecodable e))
    ∧ ∀ d, decodeInstruction s.fetchWindow = .ok d →
      (¬ s.freshFetch d.length → step s = .refused .staleCode)
      ∧ (s.freshFetch d.length → step s =
          match runItems d.items (s.begin d.length) with
          | .next t => .next (t.endInstruction ((s.begin d.length).stepsAfter d.items))
          | .fault r => .fault r
          | .refused r => .refused r)
      ∧ (∀ i, d.items = [i] → runItems d.items (s.begin d.length) =
          match exec i (s.begin d.length) with
          | .next t => .next t
          | .fault r => .fault r
          | .refused r => .refused r)
      ∧ (s.devices = [] → s.begin d.length =
          { s with
            ip := s.ip + BitVec.ofNat 16 d.length, inhibit := .none,
            latches := { override := none, rep := none, lock := false, start := s.ip } }))
    ∧ (∀ t : State, t.endInstruction false = ({ t with latches := Latches.idle } : State).advanceEnv)
    ∧ ∀ t : State, t.env.inputs = [] → t.advanceEnv = t

/-- Where the encoding of an instruction without prefixes stands in plain memory at CS:IP, a step is `exec` of that
instruction, after which its latches are cleared and, if TF was 1, the single-step interrupt may follow. JC and JNC
run as JB and JAE (log 20); that a WAIT which does not complete is not stepped is the model's reading (log 24). That
an inhibit is over after the first iteration or the first pass of a WAIT is the model's reading (logs 25, 33). -/
def Obligations.StepRunsEncodedInstruction : Prop :=
  ∀ (s : State) (i : Instr), i.wellFormed = true → prefixItem i = none →
    s.devices = [] → s.env.resetLine = false → s.request = none → s.halted = false →
    (∀ k, k < (encode i).length → Memory.read s.mem (byteAddr s.seg.cs s.ip k) = (encode i).getD k 0) →
    s.freshFetch (encode i).length →
    step s =
      match exec (canonical i)
          { s with
            ip := s.ip + BitVec.ofNat 16 (encode i).length, inhibit := .none,
            latches := { override := none, rep := none, lock := false, start := s.ip } } with
      | .next t => .next (t.endInstruction (s.flags.tf && !(decide (i = .wait) && !s.env.testLine)))
      | .fault r => .fault r
      | .refused r => .refused r

/-- A halted core with no reset and no recognised interrupt does nothing (45_processor_control.md R326); a final state
stays final, whatever the environment does but NMI and RESET (70_reset_and_hazards.md R392). When the environment's
next input arrives is the model's choice (log 5). -/
def Obligations.HaltedCoreWaits : Prop :=
  (∀ s : State, s.env.resetLine = false → s.request = none → s.halted = true → step s = .next s.advanceEnv)
    ∧ ∀ (n : Nat) (s : State), s.final → s.env.quiet →
        ∃ t, runsTo s n t ∧ t.final ∧ t.env.quiet ∧ t.gpr = s.gpr ∧ t.seg = s.seg ∧ t.ip = s.ip ∧ t.flags = s.flags
          ∧ t.mem = s.mem

/-- An active RESET line comes before everything else: the state of 70_reset_and_hazards.md R381, memory kept. What a
reset keeps: log 29; when the environment's next input arrives is the model's choice (log 5). -/
def Obligations.ResetLineRestarts : Prop :=
  ∀ s : State, s.env.resetLine = true → ∃ t, step s = .next t
    ∧ t.seg = { cs := 0xFFFF, ds := 0, ss := 0, es := 0 } ∧ t.ip = 0
    ∧ t.flags = { ofl := false, df := false, ifl := false, tf := false, sf := false, zf := false,
                  af := false, pf := false, cf := false }
    ∧ t.halted = false ∧ t.inhibit = .none ∧ t.stored = [] ∧ memKept s t
    ∧ (s.env.inputs = [] → t.env.nmiPending = false)

/-- What is recognised before an instruction (60_exceptions.md R354, R355, R358): NMI first, as type 2, unless a load
of a segment register holds it off; then the maskable request, if IF = 1 and nothing is inhibited; else nothing. When
the environment's next input arrives is the model's choice (log 5). That this comes before a repeated string
instruction with CX = 0 completes is the model's reading (log 32). -/
def Obligations.ExternalInterruptsAreRecognised : Prop :=
  ∀ s : State, s.env.resetLine = false →
    (s.env.nmiPending = true → s.inhibit ≠ .all →
      step s = .next (({ s with env := { s.env with nmiPending := false } } : State).interrupt 2 s.ip).advanceEnv)
    ∧ (∀ n, s.env.nmiPending = false → s.env.intrLine = some n → s.flags.ifl = true → s.inhibit = .none →
        step s = .next (s.interrupt n s.ip).advanceEnv)
    ∧ (s.inhibit = .all
        ∨ (s.env.nmiPending = false ∧ (s.env.intrLine = none ∨ s.flags.ifl = false ∨ s.inhibit ≠ .none)) →
        step s = if s.halted then .next s.advanceEnv else s.instructionStep)

/-! ### Interrupts -/

/-- What the interrupt sequence leaves, where memory is plain and the six bytes of the frame do not overlap the pointer
(60_exceptions.md R345, R347). `d` is the word the reserved FLAGS bits are drawn from. -/
def Obligations.InterruptSequence : Prop :=
  ∀ (s : State) (n : Byte) (ret : Word), s.devices = [] → (∀ a ∈ s.frameBytes, a ∉ vectorBytes n) →
    ∃ t d, s.interrupt n ret = t
      ∧ t.gpr = { s.gpr with sp := s.gpr.sp - 6 }
      ∧ t.seg = { s.seg with cs := wordAt s.mem (n.toNat * 4 + 2) (n.toNat * 4 + 3) }
      ∧ t.ip = wordAt s.mem (n.toNat * 4) (n.toNat * 4 + 1)
      ∧ t.flags = { s.flags with ifl := false, tf := false } ∧ t.halted = false ∧ t.inhibit = .none
      ∧ t.plainWord s.seg.ss (s.gpr.sp - 2) = s.flags.toWord d
      ∧ t.plainWord s.seg.ss (s.gpr.sp - 4) = s.seg.cs
      ∧ t.plainWord s.seg.ss (s.gpr.sp - 6) = ret
      ∧ (∀ x, x ∉ s.frameBytes → Memory.read t.mem x = Memory.read s.mem x)
      ∧ t.latches = s.latches ∧ t.devices = s.devices ∧ sameLines s t

/-- INT n, INT 3 and INTO run the interrupt sequence with the next instruction's offset, INTO only if OF = 1; IRET pops IP,
CS and the nine flags (44_control_transfer.md R303 to R306). -/
def Obligations.SoftwareInterruptsAndIret : Prop :=
  ∀ s : State,
    (∀ n : Byte, exec (.int n) s = .next (s.interrupt n s.ip))
    ∧ exec .int3 s = .next (s.interrupt 3 s.ip)
    ∧ exec .into s = .next (if s.flags.ofl then s.interrupt 4 s.ip else s)
    ∧ (s.devices = [] → ∃ t, exec .iret s = .next t
        ∧ t.ip = s.plainWord s.seg.ss s.gpr.sp
        ∧ t.seg = { s.seg with cs := s.plainWord s.seg.ss (s.gpr.sp + 2) }
        ∧ t.flags = Flags.ofWord (s.plainWord s.seg.ss (s.gpr.sp + 4))
        ∧ t.gpr = { s.gpr with sp := s.gpr.sp + 6 } ∧ memKept s t ∧ t.inhibit = s.inhibit ∧ sameControl s t)

/-- IRET right after an interrupt sequence restores the registers, CS, the flags and the interrupted point. -/
def Obligations.IretUndoesInterrupt : Prop :=
  ∀ (s : State) (n : Byte) (ret : Word), s.devices = [] →
    ∃ t, exec .iret (s.interrupt n ret) = .next t
      ∧ t.gpr = s.gpr ∧ t.seg = s.seg ∧ t.ip = ret ∧ t.flags = s.flags
      ∧ ∀ x, x ∉ s.frameBytes → Memory.read t.mem x = Memory.read s.mem x

/-- A divisor of 0 or a quotient that does not fit makes DIV and IDIV take interrupt type 0, with the status flags and
the quotient and remainder registers holding free values (41_arithmetic.md R182, R183). The pushed offset and the
extreme quotients follow the open parameters `faultReturn` (log 10) and `idivMinQuotientTraps` (log 11), at every
value of them. -/
def Obligations.DivideErrors : Prop :=
  ∀ s : State,
    (∀ (e : RM Reg8) (d : Byte), (s.read8 (s.loc e)).1 = d → d = 0 ∨ 0xFF < s.gpr.ax.toNat / d.toNat →
      ∃ u, divideFailed s u [.ax] ∧ exec (.div (.eb e)) s = .next (u.interrupt 0 (failureReturn s)))
    ∧ (∀ (e : RM Reg16) (d : Word), (s.read16 (s.loc e)).1 = d →
        d = 0 ∨ 0xFFFF < (s.gpr.dx.toNat * 65536 + s.gpr.ax.toNat) / d.toNat →
        ∃ u, divideFailed s u [.ax, .dx] ∧ exec (.div (.ev e)) s = .next (u.interrupt 0 (failureReturn s)))
    ∧ (∀ (e : RM Reg8) (d : Byte) (q : Int), (s.read8 (s.loc e)).1 = d → s.gpr.ax.toInt.tdiv d.toInt = q →
        d = 0 ∨ q < -128 ∨ 127 < q ∨ (q = -128 ∧ Config.idivMinQuotientTraps = true) →
        ∃ u, divideFailed s u [.ax] ∧ exec (.idiv (.eb e)) s = .next (u.interrupt 0 (failureReturn s)))
    ∧ ∀ (e : RM Reg16) (d : Word) (q : Int), (s.read16 (s.loc e)).1 = d →
        (s.gpr.dx.toInt * 65536 + s.gpr.ax.toNat).tdiv d.toInt = q →
        d = 0 ∨ q < -32768 ∨ 32767 < q ∨ (q = -32768 ∧ Config.idivMinQuotientTraps = true) →
        ∃ u, divideFailed s u [.ax, .dx] ∧ exec (.idiv (.ev e)) s = .next (u.interrupt 0 (failureReturn s))

/-- An instruction that began with TF = 1 is followed by the type 1 sequence in the same step, unless it loaded a
segment register or is a WAIT that does not complete; a request of the same boundary comes before it or after it as
`intPriority` says (60_exceptions.md R352, R359, R360); an active RESET line comes before both
(70_reset_and_hazards.md R380). Open parameter: log 16. That the environment's next input lands after the instruction
and before the single-step interrupt is the model's choice (log 5), and that a WAIT which does not complete is not
stepped is the model's reading (log 24). -/
def Obligations.SingleStepInterrupt : Prop :=
  ∀ (s u : State) (d : Decoded),
    s.env.resetLine = false → s.request = none → s.halted = false →
    decodeInstruction s.fetchWindow = .ok d → s.freshFetch d.length →
    runItems d.items (s.begin d.length) = .next u →
    ∃ v, v = ({ u with latches := Latches.idle } : State).advanceEnv
      ∧ (s.flags.tf = false ∨ u.inhibit = .all ∨ (d.items.getLast? = some .wait ∧ s.env.testLine = false)
          ∨ v.env.resetLine = true → step s = .next v)
      ∧ (v.env.resetLine = false → s.flags.tf = true → u.inhibit ≠ .all → (d.items.getLast? ≠ some .wait ∨ s.env.testLine = true) →
          (v.request = none → step s = .next (v.interrupt 1 v.ip))
          ∧ ∀ n, v.request = some n →
              (Config.intPriority = .stepFirst → step s = .next (v.interrupt 1 v.ip))
              ∧ (Config.intPriority = .externalFirst → ∃ x,
                  x = ({ v with env := { v.env with nmiPending := false } } : State).interrupt n v.ip
                    ∧ step s = .next (x.interrupt 1 x.ip)))

/-- The inhibit lasts for one instruction: a step that runs no STI and no load of a segment register by MOV or POP
leaves nothing inhibited (60_exceptions.md R359). For a step of a repeated string instruction and for a WAIT that does
not complete this is the model's reading (logs 25, 33). -/
def Obligations.InhibitLastsOneInstruction : Prop :=
  ∀ (s t : State) (d : Decoded), s.halted = false → decodeInstruction s.fetchWindow = .ok d → step s = .next t →
    (∀ i ∈ d.items, i ≠ .sti ∧ (∀ r e, i ≠ .movToSeg r e) ∧ ∀ r, i ≠ .popSeg r) → t.inhibit = .none

/-! ### Memory and operands -/

/-- Plain memory is little-endian and mixed widths see the same bytes; the second byte of a word is at the next offset
of the segment, at offset FFFFH where `segWrap` puts it (20_memory.md R61 to R67). The clauses on `segWrap` are the
model's choice: the spec's own model refuses the access (log 13). A byte access outside the device windows reads or
stores the byte, and a store is noted as one that the prefetch queue may not have seen (R80; log 18); one in a window
takes the environment's next answer or stores nothing, and is the newest event (R79; logs 7, 8). -/
def Obligations.MemoryWordsAreLittleEndian : Prop :=
  ∀ (s : State) (seg off v : Word) (b : Byte) (a : Nat), a = (seg.toNat * 16 + off.toNat) % 2 ^ 20 →
    (¬ s.inWindow a → s.memRead8 seg off = (Memory.read s.mem a, s)
      ∧ s.memWrite8 seg off b = { s with mem := Memory.write s.mem a b, stored := a :: s.stored }
      ∧ ∀ x, Memory.read (Memory.write s.mem a b) x = if x = a then b else Memory.read s.mem x)
    ∧ (s.inWindow a →
      (∀ w rest, s.env.answers = w :: rest → s.memRead8 seg off =
        (loByte w,
          { s with env := { s.env with answers := rest, events := .deviceRead a (loByte w) :: s.env.events } }))
      ∧ (s.env.answers = [] → ∃ w, s.memRead8 seg off =
        (w, { s with env := { s.env with events := .deviceRead a w :: s.env.events }, draws := s.draws + 1 }))
      ∧ s.memWrite8 seg off b = { s with env := { s.env with events := .deviceWrite a b :: s.env.events } })
    ∧ (s.devices = [] →
      s.memRead16 seg off = (wordOf (Memory.read s.mem a) (Memory.read s.mem (byteAddr seg off 1)), s)
      ∧ (off ≠ 0xFFFF → byteAddr seg off 1 = phys seg (off + 1))
      ∧ (Config.segWrap = .wrap → byteAddr seg off 1 = phys seg (off + 1))
      ∧ (Config.segWrap = .linear → byteAddr seg off 1 = (seg.toNat * 16 + off.toNat + 1) % 2 ^ 20)
      ∧ ((s.memWrite16 seg off v).memRead16 seg off).1 = v
      ∧ ((s.memWrite16 seg off v).memRead8 seg off).1 = loByte v
      ∧ (off ≠ 0xFFFF → ((s.memWrite16 seg off v).memRead8 seg (off + 1)).1 = hiByte v))

/-- The FLAGS word holds each flag in its place and is read back whole, whatever its reserved bits (10_state.md R31,
R32). That the reserved bits are those of one drawn word is the model's choice (log 4). -/
def Obligations.FlagsWordLayout : Prop :=
  ∀ (f : Flags) (d : Word),
    (f.toWord d).getLsbD 0 = f.cf ∧ (f.toWord d).getLsbD 2 = f.pf ∧ (f.toWord d).getLsbD 4 = f.af
    ∧ (f.toWord d).getLsbD 6 = f.zf ∧ (f.toWord d).getLsbD 7 = f.sf ∧ (f.toWord d).getLsbD 8 = f.tf
    ∧ (f.toWord d).getLsbD 9 = f.ifl ∧ (f.toWord d).getLsbD 10 = f.df ∧ (f.toWord d).getLsbD 11 = f.ofl
    ∧ (∀ k ∈ [1, 3, 5, 12, 13, 14, 15], (f.toWord d).getLsbD k = d.getLsbD k)
    ∧ Flags.ofWord (f.toWord d) = f

/-! ### Data transfer -/

/-- MOV in all its general forms writes its destination and nothing else (40_data_transfer.md R131). -/
def Obligations.MovWritesDestination : Prop :=
  ∀ (f : MovForm) (s : State), ∃ t, exec (.mov f) s = .next t
    ∧ wrote s t (movOperand s f) ∧ t.flags = s.flags ∧ sameRest s t

/-- MOV from a segment register stores it; MOV to ES, SS or DS loads it and inhibits every interrupt for one instruction
(40_data_transfer.md R132). -/
def Obligations.MovSegmentRegister : Prop :=
  ∀ (e : RM Reg16) (s : State),
    (∀ r : SReg, ∃ t, exec (.movFromSeg e r) s = .next t
      ∧ wrote16 s t (s.loc e) (s.sreg r) ∧ t.flags = s.flags ∧ sameRest s t)
    ∧ ∀ r : LoadSReg, ∃ t, exec (.movToSeg r e) s = .next t
        ∧ t.seg = (match r with
            | .es => { s.seg with es := (s.read16 (s.loc e)).1 }
            | .ss => { s.seg with ss := (s.read16 (s.loc e)).1 }
            | .ds => { s.seg with ds := (s.read16 (s.loc e)).1 })
        ∧ t.inhibit = .all ∧ t.ip = s.ip ∧ t.flags = s.flags ∧ wroteNothing s t ∧ sameControl s t

/-- The pushes: SP falls by 2 and the operand is stored at SS:SP; PUSH SP stores the decremented value
(40_data_transfer.md R133 to R135, R149). The register form of FFH /6 is read from R133 (log 28). That 68H and 6AH are
implemented is the model's choice (log 31). -/
def Obligations.Pushes : Prop :=
  ∀ s : State,
    (∀ r : Reg16, ∃ t, exec (.pushReg r) s = .next t
      ∧ pushed s t (if r = .sp then s.gpr.sp - 2 else s.reg16 r) ∧ t.flags = s.flags ∧ sameRest s t)
    ∧ (∀ e : RM Reg16, ∃ t, exec (.pushRm e) s = .next t
        ∧ pushed s t (s.read16 (s.loc e)).1 ∧ t.flags = s.flags ∧ sameRest s t)
    ∧ (∀ r : SReg, ∃ t, exec (.pushSeg r) s = .next t ∧ pushed s t (s.sreg r) ∧ t.flags = s.flags ∧ sameRest s t)
    ∧ (∀ w : Word, ∃ t, exec (.pushImm (.iw w)) s = .next t ∧ pushed s t w ∧ t.flags = s.flags ∧ sameRest s t)
    ∧ (∀ b : Byte, ∃ t, exec (.pushImm (.is b)) s = .next t
        ∧ pushed s t (b.signExtend 16) ∧ t.flags = s.flags ∧ sameRest s t)
    ∧ ∃ t d, exec .pushf s = .next t ∧ pushed s t (s.flags.toWord d) ∧ t.flags = s.flags ∧ sameRest s t

/-- The pops: the word at SS:SP goes to the destination and SP rises by 2; POP SP leaves the popped word; a segment
register load inhibits every interrupt for one instruction (40_data_transfer.md R136, R137, R150). -/
def Obligations.Pops : Prop :=
  ∀ (s : State) (v : Word), (s.memRead16 s.seg.ss s.gpr.sp).1 = v →
    (∀ r : Reg16, ∃ t, exec (.popReg r) s = .next t
      ∧ (∀ q, t.reg16 q = if q = r then v else if q = .sp then s.gpr.sp + 2 else s.reg16 q)
      ∧ memKept s t ∧ t.flags = s.flags ∧ sameRest s t)
    ∧ (∀ e : RM Reg16, ∃ t, exec (.popRm e) s = .next t
        ∧ wrote16 (s.setReg16 .sp (s.gpr.sp + 2)) t (s.loc e) v ∧ t.flags = s.flags ∧ sameRest s t)
    ∧ (∀ r : LoadSReg, ∃ t, exec (.popSeg r) s = .next t
        ∧ t.seg = (match r with
            | .es => { s.seg with es := v }
            | .ss => { s.seg with ss := v }
            | .ds => { s.seg with ds := v })
        ∧ t.gpr = { s.gpr with sp := s.gpr.sp + 2 } ∧ t.inhibit = .all ∧ memKept s t ∧ t.ip = s.ip
        ∧ t.flags = s.flags ∧ sameControl s t)
    ∧ ∃ t, exec .popf s = .next t ∧ t.flags = Flags.ofWord v
        ∧ t.gpr = { s.gpr with sp := s.gpr.sp + 2 } ∧ memKept s t ∧ sameRest s t

/-- PUSHA stores the eight registers, SP as it was before, and POPA right after it restores them all; POPA alone skips the
word in SP's place (40_data_transfer.md R138, R139). -/
def Obligations.PushaAndPopa : Prop :=
  ∀ s : State, s.devices = [] →
    (∃ t, exec .pusha s = .next t
      ∧ t.gpr = { s.gpr with sp := s.gpr.sp - 16 }
      ∧ t.plainWord s.seg.ss (s.gpr.sp - 2) = s.gpr.ax ∧ t.plainWord s.seg.ss (s.gpr.sp - 4) = s.gpr.cx
      ∧ t.plainWord s.seg.ss (s.gpr.sp - 6) = s.gpr.dx ∧ t.plainWord s.seg.ss (s.gpr.sp - 8) = s.gpr.bx
      ∧ t.plainWord s.seg.ss (s.gpr.sp - 10) = s.gpr.sp ∧ t.plainWord s.seg.ss (s.gpr.sp - 12) = s.gpr.bp
      ∧ t.plainWord s.seg.ss (s.gpr.sp - 14) = s.gpr.si ∧ t.plainWord s.seg.ss (s.gpr.sp - 16) = s.gpr.di
      ∧ (∀ x, (∀ k ∈ [2, 4, 6, 8, 10, 12, 14, 16], x ∉ wordBytes s.seg.ss (s.gpr.sp - BitVec.ofNat 16 k)) →
          Memory.read t.mem x = Memory.read s.mem x)
      ∧ t.flags = s.flags ∧ sameRest s t
      ∧ ∃ u, exec .popa t = .next u ∧ u.gpr = s.gpr)
    ∧ ∃ t, exec .popa s = .next t
      ∧ t.gpr =
          { di := s.plainWord s.seg.ss s.gpr.sp, si := s.plainWord s.seg.ss (s.gpr.sp + 2),
            bp := s.plainWord s.seg.ss (s.gpr.sp + 4), sp := s.gpr.sp + 16,
            bx := s.plainWord s.seg.ss (s.gpr.sp + 8), dx := s.plainWord s.seg.ss (s.gpr.sp + 10),
            cx := s.plainWord s.seg.ss (s.gpr.sp + 12), ax := s.plainWord s.seg.ss (s.gpr.sp + 14) }
      ∧ memKept s t ∧ t.flags = s.flags ∧ sameRest s t

/-- XCHG makes its operands change places, at the address of the old registers; XLAT puts the table's byte in AL
(40_data_transfer.md R140, R141). -/
def Obligations.ExchangeAndTranslate : Prop :=
  ∀ s : State,
    (∀ (e : RM Reg8) (g : Reg8), ∃ t, exec (.xchg (.ebGb e g)) s = .next t
      ∧ exchanged8 s t (s.loc e) g (s.read8 (s.loc e)).1 ∧ t.flags = s.flags ∧ sameRest s t)
    ∧ (∀ (e : RM Reg16) (g : Reg16), ∃ t, exec (.xchg (.evGv e g)) s = .next t
        ∧ exchanged16 s t (s.loc e) g (s.read16 (s.loc e)).1 ∧ t.flags = s.flags ∧ sameRest s t)
    ∧ (∀ r : Reg16, ∃ t, exec (.xchg (.axReg r)) s = .next t
        ∧ exchanged16 s t (.reg .ax) r s.gpr.ax ∧ t.flags = s.flags ∧ sameRest s t)
    ∧ encode .xlat = [0xD7] ∧ ∃ t, exec .xlat s = .next t
        ∧ wrote8 s t (.reg .al)
            (s.memRead8 (s.sreg (s.latches.override.getD .ds)) (s.gpr.bx + (s.reg8 .al).setWidth 16)).1
        ∧ t.flags = s.flags ∧ sameRest s t

/-- IN and INS take the environment's next answer, OUT and OUTS hand a value to it; each is one event, the newest, and
INS and OUTS move their pointer (40_data_transfer.md R142, R143; 43_string.md R247, R248; 20_memory.md R70). How the
answers are listed is the model's choice (log 7). So is that a word IN from port FFFFH runs (log 34). -/
def Obligations.PortTransfers : Prop :=
  ∀ s : State,
    (∀ f : PortForm, ∃ t v, exec (.inAcc f) s = .next t
      ∧ (∀ a rest, s.env.answers = a :: rest → v = a ∧ t.env.answers = rest)
      ∧ (portIsWord f = false → wrote8 s t (.reg .al) (loByte v)
          ∧ t.env.events = .inByte (s.port f) (loByte v) :: s.env.events)
      ∧ (portIsWord f = true → wrote16 s t (.reg .ax) v ∧ t.env.events = .inWord (s.port f) v :: s.env.events)
      ∧ t.flags = s.flags ∧ sameRest s t)
    ∧ (∀ f : PortForm, ∃ t, exec (.outAcc f) s = .next t
        ∧ t.env.events =
            (if portIsWord f then Event.outWord (s.port f) s.gpr.ax else .outByte (s.port f) (s.reg8 .al))
              :: s.env.events
        ∧ wroteNothing s t ∧ t.flags = s.flags ∧ sameRest s t)
    ∧ (s.latches.rep = none → s.devices = [] →
        (∃ t v, exec .insb s = .next t
          ∧ (∀ a rest, s.env.answers = a :: rest → v = loByte a ∧ t.env.answers = rest)
          ∧ t.env.events = .inByte s.gpr.dx v :: s.env.events ∧ storedByte s t s.seg.es s.gpr.di v
          ∧ t.gpr = { s.gpr with di := if s.flags.df then s.gpr.di - 1 else s.gpr.di + 1 }
          ∧ t.flags = s.flags ∧ sameRest s t)
        ∧ (∃ t v, exec .insw s = .next t
          ∧ (∀ a rest, s.env.answers = a :: rest → v = a ∧ t.env.answers = rest)
          ∧ t.env.events = .inWord s.gpr.dx v :: s.env.events ∧ storedWord s t s.seg.es s.gpr.di v
          ∧ t.gpr = { s.gpr with di := if s.flags.df then s.gpr.di - 2 else s.gpr.di + 2 }
          ∧ t.flags = s.flags ∧ sameRest s t)
        ∧ (∃ t, exec .outsb s = .next t
          ∧ t.env.events = .outByte s.gpr.dx (s.memRead8 s.srcSeg s.gpr.si).1 :: s.env.events ∧ memKept s t
          ∧ t.gpr = { s.gpr with si := if s.flags.df then s.gpr.si - 1 else s.gpr.si + 1 }
          ∧ t.flags = s.flags ∧ sameRest s t)
        ∧ ∃ t, exec .outsw s = .next t
          ∧ t.env.events = .outWord s.gpr.dx (s.memRead16 s.srcSeg s.gpr.si).1 :: s.env.events ∧ memKept s t
          ∧ t.gpr = { s.gpr with si := if s.flags.df then s.gpr.si - 2 else s.gpr.si + 2 }
          ∧ t.flags = s.flags ∧ sameRest s t)

/-- The effective address is the sum of base and displacement modulo 2^16, and the default segment is SS exactly for the
modes that use BP (30_encoding.md R100, 20_memory.md R72). LEA writes it and reads no memory; LDS and LES write the word
there to the register and the word after it to DS or ES (40_data_transfer.md R144 to R146). -/
def Obligations.EffectiveAddresses : Prop :=
  ∀ (g : Reg16) (m : Mem) (s : State),
    ((s.ea m).toNat : Int) = addressSum s m % 65536
    ∧ s.segRm m = (match s.latches.override with
        | some r => s.sreg r
        | none =>
          match m with
          | .direct _ => s.seg.ds
          | .base b => if b = .bp ∨ b = .bpSi ∨ b = .bpDi then s.seg.ss else s.seg.ds
          | .disp8 b _ => if b = .bp ∨ b = .bpSi ∨ b = .bpDi then s.seg.ss else s.seg.ds
          | .disp16 b _ => if b = .bp ∨ b = .bpSi ∨ b = .bpDi then s.seg.ss else s.seg.ds)
    ∧ exec (.lea g m) s = .next { s with gpr := s.gpr.set g (s.ea m) }
    ∧ (s.devices = [] →
      (∃ t, exec (.lds g m) s = .next t
        ∧ (∀ q, t.reg16 q = if q = g then (s.plainPointer m).1 else s.reg16 q)
        ∧ t.seg = { s.seg with ds := (s.plainPointer m).2 }
        ∧ t.ip = s.ip ∧ t.inhibit = s.inhibit ∧ t.flags = s.flags ∧ memKept s t ∧ sameControl s t)
      ∧ ∃ t, exec (.les g m) s = .next t
        ∧ (∀ q, t.reg16 q = if q = g then (s.plainPointer m).1 else s.reg16 q)
        ∧ t.seg = { s.seg with es := (s.plainPointer m).2 }
        ∧ t.ip = s.ip ∧ t.inhibit = s.inhibit ∧ t.flags = s.flags ∧ memKept s t ∧ sameControl s t)

/-- LAHF copies five flags to AH, whose bits 5, 3 and 1 are open; SAHF copies them back (40_data_transfer.md R147,
R148). -/
def Obligations.FlagByteTransfers : Prop :=
  ∀ s : State,
    (encode .lahf = [0x9F] ∧ ∃ t v, exec .lahf s = .next t ∧ wrote8 s t (.reg .ah) v
      ∧ v.getLsbD 7 = s.flags.sf ∧ v.getLsbD 6 = s.flags.zf ∧ v.getLsbD 4 = s.flags.af ∧ v.getLsbD 2 = s.flags.pf
      ∧ v.getLsbD 0 = s.flags.cf ∧ t.flags = s.flags ∧ sameRest s t)
    ∧ encode .sahf = [0x9E] ∧ ∃ t, exec .sahf s = .next t
      ∧ t.flags.sf = (s.reg8 .ah).getLsbD 7 ∧ t.flags.zf = (s.reg8 .ah).getLsbD 6
      ∧ t.flags.af = (s.reg8 .ah).getLsbD 4 ∧ t.flags.pf = (s.reg8 .ah).getLsbD 2
      ∧ t.flags.cf = (s.reg8 .ah).getLsbD 0 ∧ t.flags.ofl = s.flags.ofl ∧ controlFlagsKept s.flags t.flags
      ∧ wroteNothing s t ∧ sameRest s t

/-! ### Arithmetic -/

/-- ADD and ADC write the sum, ADC with CF as carry-in, and the six status flags of the addition, in every form
(41_arithmetic.md R170 to R172, 00_scope.md R13). -/
def Obligations.Additions : Prop :=
  ∀ (f : AluForm) (s : State),
    encode (.add f) = aluBytes 0x00 0 f ∧ encode (.adc f) = aluBytes 0x10 2 f
    ∧ (∃ t, exec (.add f) s = .next t ∧ added s t false (aluOperands s f))
    ∧ ∃ t, exec (.adc f) s = .next t ∧ added s t s.flags.cf (aluOperands s f)

/-- SUB and SBB write the difference, SBB with CF as borrow-in, and its six status flags, in every form; CMP writes SUB's
flags only (41_arithmetic.md R174, R175, R178, 00_scope.md R13). -/
def Obligations.Subtractions : Prop :=
  ∀ (f : AluForm) (s : State),
    encode (.sub f) = aluBytes 0x28 5 f ∧ encode (.sbb f) = aluBytes 0x18 3 f ∧ encode (.cmp f) = aluBytes 0x38 7 f
    ∧ (∃ t, exec (.sub f) s = .next t ∧ subtracted s t false (aluOperands s f))
    ∧ (∃ t, exec (.sbb f) s = .next t ∧ subtracted s t s.flags.cf (aluOperands s f))
    ∧ ∃ t, exec (.cmp f) s = .next t ∧ compared s t (aluOperands s f)

/-- INC and DEC move their operand by 1 and leave CF; NEG subtracts it from 0 (41_arithmetic.md R173, R176, R177). -/
def Obligations.IncDecNeg : Prop :=
  ∀ s : State,
    (∀ f : IncForm, encode (.inc f) = incBytes 0x40 0 f
      ∧ ∃ t, exec (.inc f) s = .next t ∧ incremented s t (incOperand s f))
    ∧ (∀ f : IncForm, encode (.dec f) = incBytes 0x48 1 f
      ∧ ∃ t, exec (.dec f) s = .next t ∧ decremented s t (incOperand s f))
    ∧ ∀ f : RmForm, (encode (.neg f) = match f with
        | .eb e => 0xF6 :: encodeEb 3 e
        | .ev e => 0xF7 :: encodeEv 3 e)
      ∧ ∃ t, exec (.neg f) s = .next t ∧ negated s t (rmOperand s f)

/-- The products of MUL and IMUL are exact in the double-length destination, that of IMUL with an immediate modulo
2^16; CF = OF says whether the product exceeds single length (41_arithmetic.md R179 to R181). That 69H and 6BH (IMUL
with an immediate) are implemented is the model's choice (log 31). -/
def Obligations.Multiplications : Prop :=
  ∀ s : State,
    (∀ e : RM Reg8, ∃ t, exec (.mul (.eb e)) s = .next t
      ∧ t.gpr.ax.toNat = (s.reg8 .al).toNat * (s.read8 (s.loc e)).1.toNat ∧ gprKept s t [.ax] ∧ memKept s t
      ∧ t.flags.cf = decide (256 ≤ (s.reg8 .al).toNat * (s.read8 (s.loc e)).1.toNat) ∧ t.flags.ofl = t.flags.cf
      ∧ controlFlagsKept s.flags t.flags ∧ sameRest s t)
    ∧ (∀ e : RM Reg16, ∃ t, exec (.mul (.ev e)) s = .next t
      ∧ t.gpr.dx.toNat * 65536 + t.gpr.ax.toNat = s.gpr.ax.toNat * (s.read16 (s.loc e)).1.toNat
      ∧ gprKept s t [.ax, .dx] ∧ memKept s t
      ∧ t.flags.cf = decide (65536 ≤ s.gpr.ax.toNat * (s.read16 (s.loc e)).1.toNat) ∧ t.flags.ofl = t.flags.cf
      ∧ controlFlagsKept s.flags t.flags ∧ sameRest s t)
    ∧ (∀ e : RM Reg8, ∃ t, exec (.imul (.eb e)) s = .next t
      ∧ t.gpr.ax.toInt = (s.reg8 .al).toInt * (s.read8 (s.loc e)).1.toInt ∧ gprKept s t [.ax] ∧ memKept s t
      ∧ t.flags.cf = decide ((s.reg8 .al).toInt * (s.read8 (s.loc e)).1.toInt < -128
          ∨ 127 < (s.reg8 .al).toInt * (s.read8 (s.loc e)).1.toInt) ∧ t.flags.ofl = t.flags.cf
      ∧ controlFlagsKept s.flags t.flags ∧ sameRest s t)
    ∧ (∀ e : RM Reg16, ∃ t, exec (.imul (.ev e)) s = .next t
      ∧ t.gpr.dx.toInt * 65536 + t.gpr.ax.toNat = s.gpr.ax.toInt * (s.read16 (s.loc e)).1.toInt
      ∧ gprKept s t [.ax, .dx] ∧ memKept s t
      ∧ t.flags.cf = decide (s.gpr.ax.toInt * (s.read16 (s.loc e)).1.toInt < -32768
          ∨ 32767 < s.gpr.ax.toInt * (s.read16 (s.loc e)).1.toInt) ∧ t.flags.ofl = t.flags.cf
      ∧ controlFlagsKept s.flags t.flags ∧ sameRest s t)
    ∧ ∀ (g : Reg16) (e : RM Reg16) (f : ImmForm) (p : Int),
      p = (s.read16 (s.loc e)).1.toInt * (match f with | .iw w => w | .is b => b.signExtend 16).toInt →
      ∃ t, exec (.imulImm g e f) s = .next t
        ∧ wrote16 s t (.reg g) (BitVec.ofInt 16 p)
        ∧ t.flags.cf = decide (p < -32768 ∨ 32767 < p) ∧ t.flags.ofl = t.flags.cf
        ∧ controlFlagsKept s.flags t.flags ∧ sameRest s t

/-- Where the divisor is not 0 and the quotient fits, DIV and IDIV leave the quotient and the remainder; IDIV
truncates toward zero and its remainder has the sign of the dividend (41_arithmetic.md R182, R183). The extreme
quotients follow the open parameter `idivMinQuotientTraps` (log 11). -/
def Obligations.Divisions : Prop :=
  ∀ s : State,
    (∀ (e : RM Reg8) (d : Byte), (s.read8 (s.loc e)).1 = d → d ≠ 0 → s.gpr.ax.toNat / d.toNat ≤ 0xFF →
      ∃ t, exec (.div (.eb e)) s = .next t
        ∧ (t.reg8 .al).toNat * d.toNat + (t.reg8 .ah).toNat = s.gpr.ax.toNat ∧ (t.reg8 .ah).toNat < d.toNat
        ∧ gprKept s t [.ax] ∧ memKept s t ∧ controlFlagsKept s.flags t.flags ∧ sameRest s t)
    ∧ (∀ (e : RM Reg16) (d : Word) (n : Nat), (s.read16 (s.loc e)).1 = d → d ≠ 0 →
      n = s.gpr.dx.toNat * 65536 + s.gpr.ax.toNat → n / d.toNat ≤ 0xFFFF →
      ∃ t, exec (.div (.ev e)) s = .next t
        ∧ t.gpr.ax.toNat * d.toNat + t.gpr.dx.toNat = n ∧ t.gpr.dx.toNat < d.toNat
        ∧ gprKept s t [.ax, .dx] ∧ memKept s t ∧ controlFlagsKept s.flags t.flags ∧ sameRest s t)
    ∧ (∀ (e : RM Reg8) (d : Byte) (q r : Int), (s.read8 (s.loc e)).1 = d → d ≠ 0 →
      s.gpr.ax.toInt = q * d.toInt + r → r.natAbs < d.toInt.natAbs → (r = 0 ∨ (r < 0 ↔ s.gpr.ax.toInt < 0)) →
      q ≤ 127 → -128 < q ∨ (q = -128 ∧ Config.idivMinQuotientTraps = false) →
      ∃ t, exec (.idiv (.eb e)) s = .next t ∧ (t.reg8 .al).toInt = q ∧ (t.reg8 .ah).toInt = r
        ∧ gprKept s t [.ax] ∧ memKept s t ∧ controlFlagsKept s.flags t.flags ∧ sameRest s t)
    ∧ ∀ (e : RM Reg16) (d : Word) (n q r : Int), (s.read16 (s.loc e)).1 = d → d ≠ 0 →
      n = s.gpr.dx.toInt * 65536 + s.gpr.ax.toNat →
      n = q * d.toInt + r → r.natAbs < d.toInt.natAbs → (r = 0 ∨ (r < 0 ↔ n < 0)) →
      q ≤ 32767 → -32768 < q ∨ (q = -32768 ∧ Config.idivMinQuotientTraps = false) →
      ∃ t, exec (.idiv (.ev e)) s = .next t ∧ t.gpr.ax.toInt = q ∧ t.gpr.dx.toInt = r
        ∧ gprKept s t [.ax, .dx] ∧ memKept s t ∧ controlFlagsKept s.flags t.flags ∧ sameRest s t

/-- The unpacked decimal adjusts: AAA and AAS move AL by 6 and AH by 1 where the low digit needs it and keep the low digit;
AAM splits AL by ten, AAD joins AH and AL (41_arithmetic.md R184 to R187). -/
def Obligations.UnpackedDecimalAdjusts : Prop :=
  ∀ (s : State) (al ah : Byte), s.reg8 .al = al → s.reg8 .ah = ah →
    (∃ t, exec .aaa s = .next t
      ∧ (if 9 < al.toNat % 16 ∨ s.flags.af = true then
          t.reg8 .al = (al + 6) &&& 0x0F ∧ t.reg8 .ah = ah + 1 ∧ t.flags.af = true ∧ t.flags.cf = true
        else t.reg8 .al = al &&& 0x0F ∧ t.reg8 .ah = ah ∧ t.flags.af = false ∧ t.flags.cf = false)
      ∧ gprKept s t [.ax] ∧ memKept s t ∧ controlFlagsKept s.flags t.flags ∧ sameRest s t)
    ∧ (∃ t, exec .aas s = .next t
      ∧ (if 9 < al.toNat % 16 ∨ s.flags.af = true then
          t.reg8 .al = (al - 6) &&& 0x0F ∧ t.reg8 .ah = ah - 1 ∧ t.flags.af = true ∧ t.flags.cf = true
        else t.reg8 .al = al &&& 0x0F ∧ t.reg8 .ah = ah ∧ t.flags.af = false ∧ t.flags.cf = false)
      ∧ gprKept s t [.ax] ∧ memKept s t ∧ controlFlagsKept s.flags t.flags ∧ sameRest s t)
    ∧ (∃ t, exec .aam s = .next t
      ∧ (t.reg8 .ah).toNat = al.toNat / 10 ∧ (t.reg8 .al).toNat = al.toNat % 10 ∧ resultFlags t.flags (t.reg8 .al)
      ∧ gprKept s t [.ax] ∧ memKept s t ∧ controlFlagsKept s.flags t.flags ∧ sameRest s t)
    ∧ ∃ t, exec .aad s = .next t
      ∧ t.reg8 .ah = 0 ∧ (t.reg8 .al).toNat = (ah.toNat * 10 + al.toNat) % 256 ∧ resultFlags t.flags (t.reg8 .al)
      ∧ gprKept s t [.ax] ∧ memKept s t ∧ controlFlagsKept s.flags t.flags ∧ sameRest s t

/-- The packed decimal adjusts: DAA by the original AL against 99H (the equivalent form of 41_arithmetic.md R188); DAS as
the text of R189 has it, outside the 24 open inputs, where AL and the status flags are open. -/
def Obligations.PackedDecimalAdjusts : Prop :=
  ∀ (s : State) (al : Byte), s.reg8 .al = al →
    (∃ t, exec .daa s = .next t
      ∧ t.reg8 .al = al + (if 9 < al.toNat % 16 ∨ s.flags.af = true then 6 else 0)
          + (if 0x99 < al.toNat ∨ s.flags.cf = true then 0x60 else 0)
      ∧ t.flags.af = decide (9 < al.toNat % 16 ∨ s.flags.af = true)
      ∧ t.flags.cf = decide (0x99 < al.toNat ∨ s.flags.cf = true) ∧ resultFlags t.flags (t.reg8 .al)
      ∧ (∀ q, q ≠ .al → t.reg8 q = s.reg8 q) ∧ gprKept s t [.ax] ∧ memKept s t
      ∧ controlFlagsKept s.flags t.flags ∧ sameRest s t)
    ∧ ∃ t, exec .das s = .next t
      ∧ (∀ first : Byte, first = al - (if 9 < al.toNat % 16 ∨ s.flags.af = true then 6 else 0) →
          (s.flags.cf = true ∨ ¬(al.toNat ≤ 5 ∧ s.flags.af = true) ∧ ¬(0x9A ≤ al.toNat ∧ al.toNat ≤ 0x9F)
            ∧ ¬(0xA0 ≤ al.toNat ∧ al.toNat ≤ 0xA5 ∧ s.flags.af = true)) →
          t.reg8 .al = first - (if 0x9F < first.toNat ∨ s.flags.cf = true then 0x60 else 0)
          ∧ t.flags.af = decide (9 < al.toNat % 16 ∨ s.flags.af = true)
          ∧ t.flags.cf = decide (0x9F < first.toNat ∨ s.flags.cf = true) ∧ resultFlags t.flags (t.reg8 .al))
      ∧ (∀ q, q ≠ .al → t.reg8 q = s.reg8 q) ∧ gprKept s t [.ax] ∧ memKept s t
      ∧ controlFlagsKept s.flags t.flags ∧ sameRest s t

/-- Packed decimal arithmetic is right: an addition of two packed bytes followed by DAA, and a subtraction followed by DAS,
leave the packed decimal result and the decimal carry or borrow (41_arithmetic.md R188, R189). -/
def Obligations.PackedDecimalArithmetic : Prop :=
  ∀ (s : State) (x y : Nat), x < 100 → y < 100 → s.reg8 .al = packed x →
    (∃ t u, exec (.adc (.alIb (packed y))) s = .next t ∧ exec .daa t = .next u
      ∧ u.reg8 .al = packed ((x + y + s.flags.cf.toNat) % 100)
      ∧ u.flags.cf = decide (100 ≤ x + y + s.flags.cf.toNat))
    ∧ ∃ t u, exec (.sbb (.alIb (packed y))) s = .next t ∧ exec .das t = .next u
      ∧ u.reg8 .al = packed ((x + 100 - y - s.flags.cf.toNat) % 100)
      ∧ u.flags.cf = decide (x < y + s.flags.cf.toNat)

/-- CBW fills AH, and CWD fills DX, with the sign (41_arithmetic.md R190, R191). -/
def Obligations.SignExtensions : Prop :=
  ∀ s : State,
    (encode .cbw = [0x98] ∧ ∃ t, exec .cbw s = .next t
      ∧ wrote8 s t (.reg .ah) (if (s.reg8 .al).toNat < 0x80 then 0 else 0xFF) ∧ t.flags = s.flags ∧ sameRest s t
      ∧ t.gpr.ax = (s.reg8 .al).signExtend 16)
    ∧ encode .cwd = [0x99] ∧ ∃ t, exec .cwd s = .next t
      ∧ wrote16 s t (.reg .dx) (if s.gpr.ax.toNat < 0x8000 then 0 else 0xFFFF) ∧ t.flags = s.flags ∧ sameRest s t
      ∧ t.gpr.dx ++ t.gpr.ax = s.gpr.ax.signExtend 32

/-! ### Logic, shifts and rotates -/

/-- AND, OR and XOR write the bitwise result with CF = OF = 0 and SF, ZF, PF by the result, in every form; TEST writes AND's
flags only (42_logic_shift.md R210, R212 to R215). -/
def Obligations.LogicalOperations : Prop :=
  ∀ s : State,
    (∀ f : AluForm,
      encode (.and f) = aluBytes 0x20 4 f ∧ encode (.or f) = aluBytes 0x08 1 f ∧ encode (.xor f) = aluBytes 0x30 6 f
      ∧ (∃ t, exec (.and f) s = .next t ∧ combined s t (fun _ a b => a &&& b) (aluOperands s f))
      ∧ (∃ t, exec (.or f) s = .next t ∧ combined s t (fun _ a b => a ||| b) (aluOperands s f))
      ∧ ∃ t, exec (.xor f) s = .next t ∧ combined s t (fun _ a b => a ^^^ b) (aluOperands s f))
    ∧ ∀ f : TestForm, ∃ t, exec (.test f) s = .next t ∧ tested s t (testOperands s f)

/-- NOT inverts its operand and changes no flag (42_logic_shift.md R211). -/
def Obligations.NotInvertsOperand : Prop :=
  ∀ (f : RmForm) (s : State),
    (encode (.not f) = match f with
      | .eb e => 0xF6 :: encodeEb 2 e
      | .ev e => 0xF7 :: encodeEv 2 e)
    ∧ ∃ t, exec (.not f) s = .next t ∧ inverted s t (rmOperand s f)

/-- Each shift is the source's loop run as many times as the count says, CF as the loop leaves it, OF by the rule
after a count of 1 and 0 for SAR, and SF, ZF, PF by the result unless the count is 0 (42_logic_shift.md R220 to R223).
Counts of 32 or more follow the open parameter `shiftCountMask`; that they run is the model's choice (log 12). -/
def Obligations.Shifts : Prop :=
  ∀ (f : RmForm) (n : Count) (s : State) (b : Byte) (c : Nat),
    b = (match n with | .one => 1 | .cl => s.reg8 .cl | .imm m => m) →
    (b.toNat < 32 → c = b.toNat) →
    (32 ≤ b.toNat → Config.shiftCountMask = .whole → c = b.toNat) →
    (32 ≤ b.toNat → Config.shiftCountMask = .low5 → c = b.toNat % 32) →
    (∃ t, exec (.shl f n) s = .next t
      ∧ turned s t (fun _ => shlTurn) c (fun _ x => shiftFlags t.flags c x (topDiffersFromCarry x)) (rmOperand s f))
    ∧ (∃ t, exec (.shr f n) s = .next t
      ∧ turned s t (fun _ => shrTurn) c (fun _ x => shiftFlags t.flags c x (topTwoDiffer x)) (rmOperand s f))
    ∧ ∃ t, exec (.sar f n) s = .next t
      ∧ turned s t (fun _ => sarTurn) c (fun _ x => shiftFlags t.flags c x false ∧ (c ≠ 0 → t.flags.ofl = false))
          (rmOperand s f)

/-- Each rotate is the source's loop run as many times as the count says, CF as the loop leaves it, OF by the rule
after a count of 1, and AF, PF, SF and ZF unchanged (42_logic_shift.md R220, R224 to R227). Counts of 32 or more: log
12. -/
def Obligations.Rotates : Prop :=
  ∀ (f : RmForm) (n : Count) (s : State) (b : Byte) (c : Nat),
    b = (match n with | .one => 1 | .cl => s.reg8 .cl | .imm m => m) →
    (b.toNat < 32 → c = b.toNat) →
    (32 ≤ b.toNat → Config.shiftCountMask = .whole → c = b.toNat) →
    (32 ≤ b.toNat → Config.shiftCountMask = .low5 → c = b.toNat % 32) →
    (∃ t, exec (.rol f n) s = .next t ∧ turned s t (fun _ => rolTurn) c
      (fun _ x => rotateFlags s.flags t.flags c (topDiffersFromCarry x)) (rmOperand s f))
    ∧ (∃ t, exec (.ror f n) s = .next t ∧ turned s t (fun _ => rorTurn) c
      (fun _ x => rotateFlags s.flags t.flags c (topTwoDiffer x)) (rmOperand s f))
    ∧ (∃ t, exec (.rcl f n) s = .next t ∧ turned s t (fun _ => rclTurn) c
      (fun _ x => rotateFlags s.flags t.flags c (topDiffersFromCarry x)) (rmOperand s f))
    ∧ ∃ t, exec (.rcr f n) s = .next t ∧ turned s t (fun _ => rcrTurn) c
      (fun _ x => rotateFlags s.flags t.flags c (topTwoDiffer x)) (rmOperand s f)

/-! ### Strings -/

/-- MOVS, LODS and STOS without a repeat prefix: the element moved, the pointers stepped by DF, nothing else written
(43_string.md R240, R242, R245, R246). -/
def Obligations.StringMoves : Prop :=
  ∀ s : State, s.latches.rep = none →
    (∃ t, exec .movsb s = .next t
      ∧ storedByte s t s.seg.es s.gpr.di (s.memRead8 (s.sreg (s.latches.override.getD .ds)) s.gpr.si).1
      ∧ t.gpr = { s.gpr with
          si := if s.flags.df then s.gpr.si - 1 else s.gpr.si + 1
          di := if s.flags.df then s.gpr.di - 1 else s.gpr.di + 1 } ∧ t.flags = s.flags ∧ sameRest s t)
    ∧ (∃ t, exec .movsw s = .next t
      ∧ storedWord s t s.seg.es s.gpr.di (s.memRead16 (s.sreg (s.latches.override.getD .ds)) s.gpr.si).1
      ∧ t.gpr = { s.gpr with
          si := if s.flags.df then s.gpr.si - 2 else s.gpr.si + 2
          di := if s.flags.df then s.gpr.di - 2 else s.gpr.di + 2 } ∧ t.flags = s.flags ∧ sameRest s t)
    ∧ (∃ t, exec .lodsb s = .next t ∧ memKept s t
      ∧ t.reg8 .al = (s.memRead8 (s.sreg (s.latches.override.getD .ds)) s.gpr.si).1 ∧ t.reg8 .ah = s.reg8 .ah
      ∧ t.gpr.si = (if s.flags.df then s.gpr.si - 1 else s.gpr.si + 1) ∧ gprKept s t [.ax, .si]
      ∧ t.flags = s.flags ∧ sameRest s t)
    ∧ (∃ t, exec .lodsw s = .next t ∧ memKept s t
      ∧ t.gpr = { s.gpr with
          ax := (s.memRead16 (s.sreg (s.latches.override.getD .ds)) s.gpr.si).1
          si := if s.flags.df then s.gpr.si - 2 else s.gpr.si + 2 } ∧ t.flags = s.flags ∧ sameRest s t)
    ∧ (∃ t, exec .stosb s = .next t ∧ storedByte s t s.seg.es s.gpr.di (s.reg8 .al)
      ∧ t.gpr = { s.gpr with di := if s.flags.df then s.gpr.di - 1 else s.gpr.di + 1 } ∧ t.flags = s.flags
      ∧ sameRest s t)
    ∧ ∃ t, exec .stosw s = .next t ∧ storedWord s t s.seg.es s.gpr.di s.gpr.ax
      ∧ t.gpr = { s.gpr with di := if s.flags.df then s.gpr.di - 2 else s.gpr.di + 2 } ∧ t.flags = s.flags
      ∧ sameRest s t

/-- CMPS subtracts the destination element from the source element, SCAS the element from the accumulator; only the status
flags and the pointers are written (43_string.md R240, R243, R244). -/
def Obligations.StringCompares : Prop :=
  ∀ s : State, s.latches.rep = none → s.devices = [] →
    (∃ t, exec .cmpsb s = .next t
      ∧ subFlags s.flags t.flags (s.memRead8 (s.sreg (s.latches.override.getD .ds)) s.gpr.si).1
          (s.memRead8 s.seg.es s.gpr.di).1 false
      ∧ t.gpr = { s.gpr with
          si := if s.flags.df then s.gpr.si - 1 else s.gpr.si + 1
          di := if s.flags.df then s.gpr.di - 1 else s.gpr.di + 1 } ∧ memKept s t ∧ sameRest s t)
    ∧ (∃ t, exec .cmpsw s = .next t
      ∧ subFlags s.flags t.flags (s.memRead16 (s.sreg (s.latches.override.getD .ds)) s.gpr.si).1
          (s.memRead16 s.seg.es s.gpr.di).1 false
      ∧ t.gpr = { s.gpr with
          si := if s.flags.df then s.gpr.si - 2 else s.gpr.si + 2
          di := if s.flags.df then s.gpr.di - 2 else s.gpr.di + 2 } ∧ memKept s t ∧ sameRest s t)
    ∧ (∃ t, exec .scasb s = .next t
      ∧ subFlags s.flags t.flags (s.reg8 .al) (s.memRead8 s.seg.es s.gpr.di).1 false
      ∧ t.gpr = { s.gpr with di := if s.flags.df then s.gpr.di - 1 else s.gpr.di + 1 } ∧ memKept s t ∧ sameRest s t)
    ∧ ∃ t, exec .scasw s = .next t
      ∧ subFlags s.flags t.flags s.gpr.ax (s.memRead16 s.seg.es s.gpr.di).1 false
      ∧ t.gpr = { s.gpr with di := if s.flags.df then s.gpr.di - 2 else s.gpr.di + 2 } ∧ memKept s t ∧ sameRest s t

/-- One step of a repeated string instruction (43_string.md R241): nothing if CX = 0; else one run of the primitive, CX one
lower, and IP back at the first prefix byte unless the count is used up or, for CMPS and SCAS, ZF ends the
repetition. -/
def Obligations.RepeatedStringStep : Prop :=
  ∀ (i : Instr) (compares : Bool) (primitive : State → State) (s : State),
    stringPrimitive i = some (compares, primitive) →
    (s.latches.rep = none → exec i s = .next (primitive s))
    ∧ ∀ k, s.latches.rep = some k →
      (s.gpr.cx = 0 → exec i s = .next s)
      ∧ (s.gpr.cx ≠ 0 → ∃ u t, u = primitive s ∧ exec i s = .next t
          ∧ t = { u with
              gpr := { u.gpr with cx := s.gpr.cx - 1 }
              ip := if (compares = true ∧ u.flags.zf ≠ decide (k = .repe))
                      ∨ s.gpr.cx = 1 then s.ip else s.latches.start })

/-! ### Control transfer -/

/-- The four CALLs push the return address, the far ones CS before it, and go to their target; indirect targets are read
before anything is pushed (44_control_transfer.md R261 to R264). -/
def Obligations.Calls : Prop :=
  ∀ s : State,
    (∀ rel : Word, ∃ t, exec (.callNear rel) s = .next t ∧ pushed s t s.ip ∧ t.ip = s.ip + rel ∧ t.seg = s.seg
      ∧ t.flags = s.flags ∧ t.inhibit = s.inhibit ∧ sameControl s t)
    ∧ (∀ e : RM Reg16, ∃ t, exec (.callInd e) s = .next t ∧ pushed s t s.ip ∧ t.ip = (s.read16 (s.loc e)).1
      ∧ t.seg = s.seg ∧ t.flags = s.flags ∧ t.inhibit = s.inhibit ∧ sameControl s t)
    ∧ (∀ off seg : Word, ∃ u t, exec (.callFar off seg) s = .next t
      ∧ pushed s u s.seg.cs ∧ u.seg = s.seg ∧ u.devices = s.devices ∧ pushed u t s.ip
      ∧ t.ip = off ∧ t.seg = { s.seg with cs := seg } ∧ t.flags = s.flags ∧ t.inhibit = s.inhibit ∧ sameControl s t)
    ∧ ∀ m : Mem, ∃ u t, exec (.callFarInd m) s = .next t
      ∧ pushed s u s.seg.cs ∧ u.seg = s.seg ∧ u.devices = s.devices ∧ pushed u t s.ip
      ∧ t.ip = (s.readPointer m).1.1 ∧ t.seg = { s.seg with cs := (s.readPointer m).1.2 }
      ∧ t.flags = s.flags ∧ t.inhibit = s.inhibit ∧ sameControl s t

/-- RET pops IP, a far RET then CS, and adds the pop value to SP; right after the CALL that matches it, it returns to the
instruction after the CALL with every register as before (44_control_transfer.md R265, R266). -/
def Obligations.Returns : Prop :=
  ∀ s : State, s.devices = [] →
    (∀ n : Option Word, ∃ t, exec (.retNear n) s = .next t ∧ t.ip = s.plainWord s.seg.ss s.gpr.sp ∧ t.seg = s.seg
      ∧ t.gpr = { s.gpr with sp := s.gpr.sp + 2 + n.getD 0 } ∧ memKept s t
      ∧ t.flags = s.flags ∧ t.inhibit = s.inhibit ∧ sameControl s t)
    ∧ (∀ n : Option Word, ∃ t, exec (.retFar n) s = .next t ∧ t.ip = s.plainWord s.seg.ss s.gpr.sp
      ∧ t.seg = { s.seg with cs := s.plainWord s.seg.ss (s.gpr.sp + 2) }
      ∧ t.gpr = { s.gpr with sp := s.gpr.sp + 4 + n.getD 0 } ∧ memKept s t
      ∧ t.flags = s.flags ∧ t.inhibit = s.inhibit ∧ sameControl s t)
    ∧ (∀ rel : Word, ∃ t u, exec (.callNear rel) s = .next t ∧ exec (.retNear none) t = .next u
      ∧ u.ip = s.ip ∧ u.gpr = s.gpr ∧ u.seg = s.seg ∧ u.flags = s.flags)
    ∧ (∀ e : RM Reg16, ∃ t u, exec (.callInd e) s = .next t ∧ exec (.retNear none) t = .next u
      ∧ u.ip = s.ip ∧ u.gpr = s.gpr ∧ u.seg = s.seg ∧ u.flags = s.flags)
    ∧ (∀ off seg : Word, ∃ t u, exec (.callFar off seg) s = .next t ∧ exec (.retFar none) t = .next u
      ∧ u.ip = s.ip ∧ u.gpr = s.gpr ∧ u.seg = s.seg ∧ u.flags = s.flags)
    ∧ ∀ m : Mem, ∃ t u, exec (.callFarInd m) s = .next t ∧ exec (.retFar none) t = .next u
      ∧ u.ip = s.ip ∧ u.gpr = s.gpr ∧ u.seg = s.seg ∧ u.flags = s.flags

/-- The JMPs write IP, the far ones CS too, empty the prefetch queue, and do nothing else
(44_control_transfer.md R267 to R270, 20_memory.md R80). -/
def Obligations.Jumps : Prop :=
  ∀ s : State,
    (∀ rel : Byte, encode (.jmpShort rel) = [0xEB, rel]
      ∧ ∃ t, exec (.jmpShort rel) s = .next t ∧ t.ip = s.ip + rel.signExtend 16 ∧ t.seg = s.seg
      ∧ t.stored = [] ∧ wroteNothing s t ∧ t.flags = s.flags ∧ t.inhibit = s.inhibit ∧ sameControl s t)
    ∧ (∀ rel : Word, encode (.jmpNear rel) = [0xE9, loByte rel, hiByte rel]
      ∧ ∃ t, exec (.jmpNear rel) s = .next t ∧ t.ip = s.ip + rel ∧ t.seg = s.seg
      ∧ t.stored = [] ∧ wroteNothing s t ∧ t.flags = s.flags ∧ t.inhibit = s.inhibit ∧ sameControl s t)
    ∧ (∀ e : RM Reg16, encode (.jmpInd e) = 0xFF :: encodeEv 4 e
      ∧ ∃ t, exec (.jmpInd e) s = .next t ∧ t.ip = (s.read16 (s.loc e)).1 ∧ t.seg = s.seg
      ∧ t.stored = [] ∧ wroteNothing s t ∧ t.flags = s.flags ∧ t.inhibit = s.inhibit ∧ sameControl s t)
    ∧ (∀ off seg : Word, encode (.jmpFar off seg) = [0xEA, loByte off, hiByte off, loByte seg, hiByte seg]
      ∧ ∃ t, exec (.jmpFar off seg) s = .next t ∧ t.ip = off ∧ t.seg = { s.seg with cs := seg }
      ∧ t.stored = [] ∧ wroteNothing s t ∧ t.flags = s.flags ∧ t.inhibit = s.inhibit ∧ sameControl s t)
    ∧ ∀ m : Mem, encode (.jmpFarInd m) = 0xFF :: encodeMem 5 m
      ∧ ∃ t, exec (.jmpFarInd m) s = .next t ∧ t.ip = (s.readPointer m).1.1
      ∧ t.seg = { s.seg with cs := (s.readPointer m).1.2 }
      ∧ t.stored = [] ∧ wroteNothing s t ∧ t.flags = s.flags ∧ t.inhibit = s.inhibit ∧ sameControl s t

/-- Each conditional jump adds its displacement to IP exactly if its condition holds, and changes nothing else
(44_control_transfer.md R280 to R298). -/
def Obligations.ConditionalJumps : Prop :=
  ∀ (s : State) (rel opcode : Byte) (i : Instr) (condition : Bool), (opcode, i, condition) ∈ conditionOf s.flags rel →
    encode i = [opcode, rel] ∧ ∃ t, exec i s = .next t
      ∧ t.ip = (if condition then s.ip + rel.signExtend 16 else s.ip) ∧ t.seg = s.seg
      ∧ wroteNothing s t ∧ t.flags = s.flags ∧ t.inhibit = s.inhibit ∧ sameControl s t

/-- After CMP a, b the conditions mean what their names say: equal, below, below or equal, less, less or equal, and their
negations (44_control_transfer.md R280, 41_arithmetic.md R178). -/
def Obligations.ConditionsAfterCompare : Prop :=
  ∀ (f : AluForm) (s t : State), exec (.cmp f) s = .next t →
    match aluOperands s f with
    | .byte _ a b => orderFlags t.flags a b
    | .word _ a b => orderFlags t.flags a b

/-- JCXZ jumps if CX = 0; the LOOPs decrement CX and jump if it is not 0 and, for LOOPE and LOOPNE, ZF agrees; no flag
changes (44_control_transfer.md R299 to R302). -/
def Obligations.CounterJumps : Prop :=
  ∀ (s : State) (rel : Byte),
    (encode (.jcxz rel) = [0xE3, rel] ∧ ∃ t, exec (.jcxz rel) s = .next t
      ∧ t.ip = (if s.gpr.cx = 0 then s.ip + rel.signExtend 16 else s.ip)
      ∧ wroteNothing s t ∧ t.seg = s.seg ∧ t.flags = s.flags ∧ t.inhibit = s.inhibit ∧ sameControl s t)
    ∧ (encode (.loop rel) = [0xE2, rel] ∧ ∃ t, exec (.loop rel) s = .next t
      ∧ t.gpr = { s.gpr with cx := s.gpr.cx - 1 }
      ∧ t.ip = (if t.gpr.cx ≠ 0 then s.ip + rel.signExtend 16 else s.ip)
      ∧ memKept s t ∧ t.seg = s.seg ∧ t.flags = s.flags ∧ t.inhibit = s.inhibit ∧ sameControl s t)
    ∧ (encode (.loope rel) = [0xE1, rel] ∧ ∃ t, exec (.loope rel) s = .next t
      ∧ t.gpr = { s.gpr with cx := s.gpr.cx - 1 }
      ∧ t.ip = (if s.flags.zf = true ∧ t.gpr.cx ≠ 0 then s.ip + rel.signExtend 16 else s.ip)
      ∧ memKept s t ∧ t.seg = s.seg ∧ t.flags = s.flags ∧ t.inhibit = s.inhibit ∧ sameControl s t)
    ∧ encode (.loopne rel) = [0xE0, rel] ∧ ∃ t, exec (.loopne rel) s = .next t
      ∧ t.gpr = { s.gpr with cx := s.gpr.cx - 1 }
      ∧ t.ip = (if s.flags.zf = false ∧ t.gpr.cx ≠ 0 then s.ip + rel.signExtend 16 else s.ip)
      ∧ memKept s t ∧ t.seg = s.seg ∧ t.flags = s.flags ∧ t.inhibit = s.inhibit ∧ sameControl s t

/-- BOUND passes an index inside its signed bounds, both included, and takes interrupt type 5 outside them, with
nothing else changed (44_control_transfer.md R307, 60_exceptions.md R348). The pushed offset follows the open
parameter `faultReturn` (log 10). -/
def Obligations.BoundChecksIndex : Prop :=
  ∀ (s : State) (g : Reg16) (m : Mem), s.devices = [] →
    ((s.plainPointer m).1.toInt ≤ (s.reg16 g).toInt → (s.reg16 g).toInt ≤ (s.plainPointer m).2.toInt →
      exec (.bound g m) s = .next s)
    ∧ ((s.reg16 g).toInt < (s.plainPointer m).1.toInt ∨ (s.plainPointer m).2.toInt < (s.reg16 g).toInt →
      exec (.bound g m) s = .next (s.interrupt 5 (failureReturn s)))

/-- ENTER at the level L its byte means: the old BP is pushed, BP is left at that word, L words are pushed below it,
the last of them the new frame pointer and the others the caller's display, where the display does not overlap the new
frame; then SP falls by `locals`. LEAVE takes SP from BP and pops BP; right after an ENTER it restores both
(44_control_transfer.md R308, R309). That levels above 31 run is the model's choice (log 14). -/
def Obligations.EnterAndLeave : Prop :=
  ∀ s : State, s.devices = [] →
    (∀ (locals : Word) (level : Byte) (l : Nat), l = enterLevel level →
    ∃ t, exec (.enter locals level) s = .next t
      ∧ (level.toNat < 32 → l = level.toNat)
      ∧ t.gpr = { s.gpr with bp := s.gpr.sp - 2, sp := s.gpr.sp - 2 - BitVec.ofNat 16 (2 * l) - locals }
      ∧ t.plainWord s.seg.ss (s.gpr.sp - 2) = s.gpr.bp
      ∧ (l ≠ 0 → t.plainWord s.seg.ss (s.gpr.sp - 2 - BitVec.ofNat 16 (2 * l)) = s.gpr.sp - 2)
      ∧ ((∀ j k, 1 ≤ j → j < l → k ≤ l → ∀ x ∈ wordBytes s.seg.ss (s.gpr.bp - BitVec.ofNat 16 (2 * j)),
            x ∉ wordBytes s.seg.ss (s.gpr.sp - 2 - BitVec.ofNat 16 (2 * k))) →
          ∀ j, 1 ≤ j → j < l →
            t.plainWord s.seg.ss (s.gpr.sp - 2 - BitVec.ofNat 16 (2 * j))
              = s.plainWord s.seg.ss (s.gpr.bp - BitVec.ofNat 16 (2 * j)))
      ∧ (∀ x, (∀ k, k ≤ l → x ∉ wordBytes s.seg.ss (s.gpr.sp - 2 - BitVec.ofNat 16 (2 * k))) →
          Memory.read t.mem x = Memory.read s.mem x)
      ∧ t.flags = s.flags ∧ sameRest s t
      ∧ ∃ u, exec .leave t = .next u ∧ u.gpr = s.gpr)
    ∧ ∃ t, exec .leave s = .next t
      ∧ t.gpr = { s.gpr with sp := s.gpr.bp + 2, bp := s.plainWord s.seg.ss s.gpr.bp }
      ∧ memKept s t ∧ t.flags = s.flags ∧ sameRest s t

/-! ### Processor control and prefixes -/

/-- The instructions that write one flag (45_processor_control.md R320 to R325). -/
def Obligations.FlagInstructions : Prop :=
  ∀ s : State,
    (encode .clc = [0xF8] ∧ exec .clc s = .next { s with flags := { s.flags with cf := false } })
    ∧ (encode .stc = [0xF9] ∧ exec .stc s = .next { s with flags := { s.flags with cf := true } })
    ∧ (encode .cmc = [0xF5] ∧ exec .cmc s = .next { s with flags := { s.flags with cf := !s.flags.cf } })
    ∧ (encode .cld = [0xFC] ∧ exec .cld s = .next { s with flags := { s.flags with df := false } })
    ∧ (encode .std = [0xFD] ∧ exec .std s = .next { s with flags := { s.flags with df := true } })
    ∧ encode .cli = [0xFA] ∧ exec .cli s = .next { s with flags := { s.flags with ifl := false } }

/-- STI sets IF and inhibits the maskable interrupt; HLT halts; WAIT goes on if the test line is active and else goes
back to its own first byte; NOP does nothing; ESC traps as type 7 or only reads its operand, as `escTraps` says
(45_processor_control.md R326 to R334). `escTraps` is an open parameter (log 15). -/
def Obligations.ProcessorControl : Prop :=
  ∀ s : State,
    exec .sti s = .next { s with flags := { s.flags with ifl := true }, inhibit := .maskable }
    ∧ exec .hlt s = .next { s with halted := true }
    ∧ exec .wait s = .next (if s.env.testLine then s else { s with ip := s.latches.start })
    ∧ exec .nop s = .next s
    ∧ ∀ (op : BitVec 6) (e : RM Reg16),
      (Config.escTraps = true → exec (.esc op e) s = .next (s.interrupt 7 s.latches.start))
      ∧ (Config.escTraps = false → ∃ t, exec (.esc op e) s = .next t ∧ wroteNothing s t ∧ t.flags = s.flags ∧ sameRest s t
          ∧ (∀ r, e = .reg r → t = s)
          ∧ ∀ m, e = .mem m → t = (s.memRead16 (s.segRm m) (s.ea m)).2)

/-- A prefix byte sets its latch for the instruction it stands before and changes nothing else (30_encoding.md R92,
R93; 45_processor_control.md R332, R336; 43_string.md R241). How the latches are held is the model's choice (log 23).
-/
def Obligations.PrefixesSetLatches : Prop :=
  ∀ s : State,
    exec .segEs s = .next { s with latches := { s.latches with override := some .es } }
    ∧ exec .segCs s = .next { s with latches := { s.latches with override := some .cs } }
    ∧ exec .segSs s = .next { s with latches := { s.latches with override := some .ss } }
    ∧ exec .segDs s = .next { s with latches := { s.latches with override := some .ds } }
    ∧ exec .rep s = .next { s with latches := { s.latches with rep := some .repe } }
    ∧ exec .repne s = .next { s with latches := { s.latches with rep := some .repne } }
    ∧ exec .lock s = .next { s with latches := { s.latches with lock := true } }

/-- An unused encoding is a fault of the model (30_encoding.md R124). Type 6 is not taken: decision D15 of the spec
(log 26). -/
def Obligations.UnusedEncodingFaults : Prop :=
  ∀ (u : Unused) (s : State), exec (.unused u) s = .fault .unusedEncoding

/-! ### Rules over all instructions -/

/-- No instruction but the far transfers, IRET and those that enter an interrupt changes CS (10_state.md R35). -/
def Obligations.OnlyFarTransfersWriteCs : Prop :=
  ∀ (i : Instr) (s t : State), mayWriteCs i = false → exec i s = .next t → t.seg.cs = s.seg.cs

/-- No instruction changes a flag that the table of 10_state.md R33 does not list for it. IF and TF of ESC: log 15. -/
def Obligations.FlagsOutsideTheTableAreKept : Prop :=
  ∀ (i : Instr) (s t : State) (f : FlagName), f ∉ flagsWritten i → exec i s = .next t → t.flags.flag f = s.flags.flag f

/-- Where all memory is plain, only IN, OUT, INS and OUTS are seen by the environment (20_memory.md R70, R79). -/
def Obligations.OnlyPortInstructionsAreSeen : Prop :=
  ∀ (i : Instr) (s t : State), usesPort i = false → s.devices = [] → exec i s = .next t → t.env = s.env
end

