-- ==== Sys2Proof/Laws/State.lean ====
section
/-! SUPPORT. One lemma per field per update of the state, so that no proof unfolds an update. -/

namespace Sys2Proof.Machine

/-! ### setGpr -/

@[simp] theorem State.setGpr_gpr (s : State) (g : Gpr) : (s.setGpr g).gpr = g := rfl
@[simp] theorem State.setGpr_seg (s : State) (g : Gpr) : (s.setGpr g).seg = s.seg := rfl
@[simp] theorem State.setGpr_ip (s : State) (g : Gpr) : (s.setGpr g).ip = s.ip := rfl
@[simp] theorem State.setGpr_flags (s : State) (g : Gpr) : (s.setGpr g).flags = s.flags := rfl
@[simp] theorem State.setGpr_halted (s : State) (g : Gpr) : (s.setGpr g).halted = s.halted := rfl
@[simp] theorem State.setGpr_inhibit (s : State) (g : Gpr) : (s.setGpr g).inhibit = s.inhibit := rfl
@[simp] theorem State.setGpr_latches (s : State) (g : Gpr) : (s.setGpr g).latches = s.latches := rfl
@[simp] theorem State.setGpr_mem (s : State) (g : Gpr) : (s.setGpr g).mem = s.mem := rfl
@[simp] theorem State.setGpr_stored (s : State) (g : Gpr) : (s.setGpr g).stored = s.stored := rfl
@[simp] theorem State.setGpr_devices (s : State) (g : Gpr) : (s.setGpr g).devices = s.devices := rfl
@[simp] theorem State.setGpr_env (s : State) (g : Gpr) : (s.setGpr g).env = s.env := rfl
@[simp] theorem State.setGpr_draws (s : State) (g : Gpr) : (s.setGpr g).draws = s.draws := rfl

/-! ### setSegs -/

@[simp] theorem State.setSegs_gpr (s : State) (g : Segs) : (s.setSegs g).gpr = s.gpr := rfl
@[simp] theorem State.setSegs_seg (s : State) (g : Segs) : (s.setSegs g).seg = g := rfl
@[simp] theorem State.setSegs_ip (s : State) (g : Segs) : (s.setSegs g).ip = s.ip := rfl
@[simp] theorem State.setSegs_flags (s : State) (g : Segs) : (s.setSegs g).flags = s.flags := rfl
@[simp] theorem State.setSegs_halted (s : State) (g : Segs) : (s.setSegs g).halted = s.halted := rfl
@[simp] theorem State.setSegs_inhibit (s : State) (g : Segs) : (s.setSegs g).inhibit = s.inhibit := rfl
@[simp] theorem State.setSegs_latches (s : State) (g : Segs) : (s.setSegs g).latches = s.latches := rfl
@[simp] theorem State.setSegs_mem (s : State) (g : Segs) : (s.setSegs g).mem = s.mem := rfl
@[simp] theorem State.setSegs_stored (s : State) (g : Segs) : (s.setSegs g).stored = s.stored := rfl
@[simp] theorem State.setSegs_devices (s : State) (g : Segs) : (s.setSegs g).devices = s.devices := rfl
@[simp] theorem State.setSegs_env (s : State) (g : Segs) : (s.setSegs g).env = s.env := rfl
@[simp] theorem State.setSegs_draws (s : State) (g : Segs) : (s.setSegs g).draws = s.draws := rfl

/-! ### setIp -/

@[simp] theorem State.setIp_gpr (s : State) (v : Word) : (s.setIp v).gpr = s.gpr := rfl
@[simp] theorem State.setIp_seg (s : State) (v : Word) : (s.setIp v).seg = s.seg := rfl
@[simp] theorem State.setIp_ip (s : State) (v : Word) : (s.setIp v).ip = v := rfl
@[simp] theorem State.setIp_flags (s : State) (v : Word) : (s.setIp v).flags = s.flags := rfl
@[simp] theorem State.setIp_halted (s : State) (v : Word) : (s.setIp v).halted = s.halted := rfl
@[simp] theorem State.setIp_inhibit (s : State) (v : Word) : (s.setIp v).inhibit = s.inhibit := rfl
@[simp] theorem State.setIp_latches (s : State) (v : Word) : (s.setIp v).latches = s.latches := rfl
@[simp] theorem State.setIp_mem (s : State) (v : Word) : (s.setIp v).mem = s.mem := rfl
@[simp] theorem State.setIp_stored (s : State) (v : Word) : (s.setIp v).stored = s.stored := rfl
@[simp] theorem State.setIp_devices (s : State) (v : Word) : (s.setIp v).devices = s.devices := rfl
@[simp] theorem State.setIp_env (s : State) (v : Word) : (s.setIp v).env = s.env := rfl
@[simp] theorem State.setIp_draws (s : State) (v : Word) : (s.setIp v).draws = s.draws := rfl

/-! ### setFlags -/

@[simp] theorem State.setFlags_gpr (s : State) (f : Flags) : (s.setFlags f).gpr = s.gpr := rfl
@[simp] theorem State.setFlags_seg (s : State) (f : Flags) : (s.setFlags f).seg = s.seg := rfl
@[simp] theorem State.setFlags_ip (s : State) (f : Flags) : (s.setFlags f).ip = s.ip := rfl
@[simp] theorem State.setFlags_flags (s : State) (f : Flags) : (s.setFlags f).flags = f := rfl
@[simp] theorem State.setFlags_halted (s : State) (f : Flags) : (s.setFlags f).halted = s.halted := rfl
@[simp] theorem State.setFlags_inhibit (s : State) (f : Flags) : (s.setFlags f).inhibit = s.inhibit := rfl
@[simp] theorem State.setFlags_latches (s : State) (f : Flags) : (s.setFlags f).latches = s.latches := rfl
@[simp] theorem State.setFlags_mem (s : State) (f : Flags) : (s.setFlags f).mem = s.mem := rfl
@[simp] theorem State.setFlags_stored (s : State) (f : Flags) : (s.setFlags f).stored = s.stored := rfl
@[simp] theorem State.setFlags_devices (s : State) (f : Flags) : (s.setFlags f).devices = s.devices := rfl
@[simp] theorem State.setFlags_env (s : State) (f : Flags) : (s.setFlags f).env = s.env := rfl
@[simp] theorem State.setFlags_draws (s : State) (f : Flags) : (s.setFlags f).draws = s.draws := rfl

/-! ### setHalted -/

@[simp] theorem State.setHalted_gpr (s : State) (b : Bool) : (s.setHalted b).gpr = s.gpr := rfl
@[simp] theorem State.setHalted_seg (s : State) (b : Bool) : (s.setHalted b).seg = s.seg := rfl
@[simp] theorem State.setHalted_ip (s : State) (b : Bool) : (s.setHalted b).ip = s.ip := rfl
@[simp] theorem State.setHalted_flags (s : State) (b : Bool) : (s.setHalted b).flags = s.flags := rfl
@[simp] theorem State.setHalted_halted (s : State) (b : Bool) : (s.setHalted b).halted = b := rfl
@[simp] theorem State.setHalted_inhibit (s : State) (b : Bool) : (s.setHalted b).inhibit = s.inhibit := rfl
@[simp] theorem State.setHalted_latches (s : State) (b : Bool) : (s.setHalted b).latches = s.latches := rfl
@[simp] theorem State.setHalted_mem (s : State) (b : Bool) : (s.setHalted b).mem = s.mem := rfl
@[simp] theorem State.setHalted_stored (s : State) (b : Bool) : (s.setHalted b).stored = s.stored := rfl
@[simp] theorem State.setHalted_devices (s : State) (b : Bool) : (s.setHalted b).devices = s.devices := rfl
@[simp] theorem State.setHalted_env (s : State) (b : Bool) : (s.setHalted b).env = s.env := rfl
@[simp] theorem State.setHalted_draws (s : State) (b : Bool) : (s.setHalted b).draws = s.draws := rfl

/-! ### setInhibit -/

@[simp] theorem State.setInhibit_gpr (s : State) (i : Inhibit) : (s.setInhibit i).gpr = s.gpr := rfl
@[simp] theorem State.setInhibit_seg (s : State) (i : Inhibit) : (s.setInhibit i).seg = s.seg := rfl
@[simp] theorem State.setInhibit_ip (s : State) (i : Inhibit) : (s.setInhibit i).ip = s.ip := rfl
@[simp] theorem State.setInhibit_flags (s : State) (i : Inhibit) : (s.setInhibit i).flags = s.flags := rfl
@[simp] theorem State.setInhibit_halted (s : State) (i : Inhibit) : (s.setInhibit i).halted = s.halted := rfl
@[simp] theorem State.setInhibit_inhibit (s : State) (i : Inhibit) : (s.setInhibit i).inhibit = i := rfl
@[simp] theorem State.setInhibit_latches (s : State) (i : Inhibit) : (s.setInhibit i).latches = s.latches := rfl
@[simp] theorem State.setInhibit_mem (s : State) (i : Inhibit) : (s.setInhibit i).mem = s.mem := rfl
@[simp] theorem State.setInhibit_stored (s : State) (i : Inhibit) : (s.setInhibit i).stored = s.stored := rfl
@[simp] theorem State.setInhibit_devices (s : State) (i : Inhibit) : (s.setInhibit i).devices = s.devices := rfl
@[simp] theorem State.setInhibit_env (s : State) (i : Inhibit) : (s.setInhibit i).env = s.env := rfl
@[simp] theorem State.setInhibit_draws (s : State) (i : Inhibit) : (s.setInhibit i).draws = s.draws := rfl

/-! ### setLatches -/

@[simp] theorem State.setLatches_gpr (s : State) (l : Latches) : (s.setLatches l).gpr = s.gpr := rfl
@[simp] theorem State.setLatches_seg (s : State) (l : Latches) : (s.setLatches l).seg = s.seg := rfl
@[simp] theorem State.setLatches_ip (s : State) (l : Latches) : (s.setLatches l).ip = s.ip := rfl
@[simp] theorem State.setLatches_flags (s : State) (l : Latches) : (s.setLatches l).flags = s.flags := rfl
@[simp] theorem State.setLatches_halted (s : State) (l : Latches) : (s.setLatches l).halted = s.halted := rfl
@[simp] theorem State.setLatches_inhibit (s : State) (l : Latches) : (s.setLatches l).inhibit = s.inhibit := rfl
@[simp] theorem State.setLatches_latches (s : State) (l : Latches) : (s.setLatches l).latches = l := rfl
@[simp] theorem State.setLatches_mem (s : State) (l : Latches) : (s.setLatches l).mem = s.mem := rfl
@[simp] theorem State.setLatches_stored (s : State) (l : Latches) : (s.setLatches l).stored = s.stored := rfl
@[simp] theorem State.setLatches_devices (s : State) (l : Latches) : (s.setLatches l).devices = s.devices := rfl
@[simp] theorem State.setLatches_env (s : State) (l : Latches) : (s.setLatches l).env = s.env := rfl
@[simp] theorem State.setLatches_draws (s : State) (l : Latches) : (s.setLatches l).draws = s.draws := rfl

/-! ### setEnv -/

@[simp] theorem State.setEnv_gpr (s : State) (e : Env) : (s.setEnv e).gpr = s.gpr := rfl
@[simp] theorem State.setEnv_seg (s : State) (e : Env) : (s.setEnv e).seg = s.seg := rfl
@[simp] theorem State.setEnv_ip (s : State) (e : Env) : (s.setEnv e).ip = s.ip := rfl
@[simp] theorem State.setEnv_flags (s : State) (e : Env) : (s.setEnv e).flags = s.flags := rfl
@[simp] theorem State.setEnv_halted (s : State) (e : Env) : (s.setEnv e).halted = s.halted := rfl
@[simp] theorem State.setEnv_inhibit (s : State) (e : Env) : (s.setEnv e).inhibit = s.inhibit := rfl
@[simp] theorem State.setEnv_latches (s : State) (e : Env) : (s.setEnv e).latches = s.latches := rfl
@[simp] theorem State.setEnv_mem (s : State) (e : Env) : (s.setEnv e).mem = s.mem := rfl
@[simp] theorem State.setEnv_stored (s : State) (e : Env) : (s.setEnv e).stored = s.stored := rfl
@[simp] theorem State.setEnv_devices (s : State) (e : Env) : (s.setEnv e).devices = s.devices := rfl
@[simp] theorem State.setEnv_env (s : State) (e : Env) : (s.setEnv e).env = e := rfl
@[simp] theorem State.setEnv_draws (s : State) (e : Env) : (s.setEnv e).draws = s.draws := rfl

/-! ### flushQueue -/

@[simp] theorem State.flushQueue_gpr (s : State) : s.flushQueue.gpr = s.gpr := rfl
@[simp] theorem State.flushQueue_seg (s : State) : s.flushQueue.seg = s.seg := rfl
@[simp] theorem State.flushQueue_ip (s : State) : s.flushQueue.ip = s.ip := rfl
@[simp] theorem State.flushQueue_flags (s : State) : s.flushQueue.flags = s.flags := rfl
@[simp] theorem State.flushQueue_halted (s : State) : s.flushQueue.halted = s.halted := rfl
@[simp] theorem State.flushQueue_inhibit (s : State) : s.flushQueue.inhibit = s.inhibit := rfl
@[simp] theorem State.flushQueue_latches (s : State) : s.flushQueue.latches = s.latches := rfl
@[simp] theorem State.flushQueue_mem (s : State) : s.flushQueue.mem = s.mem := rfl
@[simp] theorem State.flushQueue_stored (s : State) : s.flushQueue.stored = [] := rfl
@[simp] theorem State.flushQueue_devices (s : State) : s.flushQueue.devices = s.devices := rfl
@[simp] theorem State.flushQueue_env (s : State) : s.flushQueue.env = s.env := rfl
@[simp] theorem State.flushQueue_draws (s : State) : s.flushQueue.draws = s.draws := rfl

/-! ### setReg16 -/

@[simp] theorem State.setReg16_gpr (s : State) (r : Reg16) (v : Word) : (s.setReg16 r v).gpr = s.gpr.set r v := rfl
@[simp] theorem State.setReg16_seg (s : State) (r : Reg16) (v : Word) : (s.setReg16 r v).seg = s.seg := rfl
@[simp] theorem State.setReg16_ip (s : State) (r : Reg16) (v : Word) : (s.setReg16 r v).ip = s.ip := rfl
@[simp] theorem State.setReg16_flags (s : State) (r : Reg16) (v : Word) : (s.setReg16 r v).flags = s.flags := rfl
@[simp] theorem State.setReg16_halted (s : State) (r : Reg16) (v : Word) : (s.setReg16 r v).halted = s.halted := rfl
@[simp] theorem State.setReg16_inhibit (s : State) (r : Reg16) (v : Word) : (s.setReg16 r v).inhibit = s.inhibit := rfl
@[simp] theorem State.setReg16_latches (s : State) (r : Reg16) (v : Word) : (s.setReg16 r v).latches = s.latches := rfl
@[simp] theorem State.setReg16_mem (s : State) (r : Reg16) (v : Word) : (s.setReg16 r v).mem = s.mem := rfl
@[simp] theorem State.setReg16_stored (s : State) (r : Reg16) (v : Word) : (s.setReg16 r v).stored = s.stored := rfl
@[simp] theorem State.setReg16_devices (s : State) (r : Reg16) (v : Word) : (s.setReg16 r v).devices = s.devices := rfl
@[simp] theorem State.setReg16_env (s : State) (r : Reg16) (v : Word) : (s.setReg16 r v).env = s.env := rfl
@[simp] theorem State.setReg16_draws (s : State) (r : Reg16) (v : Word) : (s.setReg16 r v).draws = s.draws := rfl

/-! ### setReg8 -/

@[simp] theorem State.setReg8_gpr (s : State) (r : Reg8) (v : Byte) : (s.setReg8 r v).gpr = s.gpr.set8 r v := rfl
@[simp] theorem State.setReg8_seg (s : State) (r : Reg8) (v : Byte) : (s.setReg8 r v).seg = s.seg := rfl
@[simp] theorem State.setReg8_ip (s : State) (r : Reg8) (v : Byte) : (s.setReg8 r v).ip = s.ip := rfl
@[simp] theorem State.setReg8_flags (s : State) (r : Reg8) (v : Byte) : (s.setReg8 r v).flags = s.flags := rfl
@[simp] theorem State.setReg8_halted (s : State) (r : Reg8) (v : Byte) : (s.setReg8 r v).halted = s.halted := rfl
@[simp] theorem State.setReg8_inhibit (s : State) (r : Reg8) (v : Byte) : (s.setReg8 r v).inhibit = s.inhibit := rfl
@[simp] theorem State.setReg8_latches (s : State) (r : Reg8) (v : Byte) : (s.setReg8 r v).latches = s.latches := rfl
@[simp] theorem State.setReg8_mem (s : State) (r : Reg8) (v : Byte) : (s.setReg8 r v).mem = s.mem := rfl
@[simp] theorem State.setReg8_stored (s : State) (r : Reg8) (v : Byte) : (s.setReg8 r v).stored = s.stored := rfl
@[simp] theorem State.setReg8_devices (s : State) (r : Reg8) (v : Byte) : (s.setReg8 r v).devices = s.devices := rfl
@[simp] theorem State.setReg8_env (s : State) (r : Reg8) (v : Byte) : (s.setReg8 r v).env = s.env := rfl
@[simp] theorem State.setReg8_draws (s : State) (r : Reg8) (v : Byte) : (s.setReg8 r v).draws = s.draws := rfl

/-! ### loadSReg -/

@[simp] theorem State.loadSReg_gpr (s : State) (r : LoadSReg) (v : Word) : (s.loadSReg r v).gpr = s.gpr := rfl
@[simp] theorem State.loadSReg_seg (s : State) (r : LoadSReg) (v : Word) : (s.loadSReg r v).seg = s.seg.load r v := rfl
@[simp] theorem State.loadSReg_ip (s : State) (r : LoadSReg) (v : Word) : (s.loadSReg r v).ip = s.ip := rfl
@[simp] theorem State.loadSReg_flags (s : State) (r : LoadSReg) (v : Word) : (s.loadSReg r v).flags = s.flags := rfl
@[simp] theorem State.loadSReg_halted (s : State) (r : LoadSReg) (v : Word) : (s.loadSReg r v).halted = s.halted := rfl
@[simp] theorem State.loadSReg_inhibit (s : State) (r : LoadSReg) (v : Word) : (s.loadSReg r v).inhibit = s.inhibit := rfl
@[simp] theorem State.loadSReg_latches (s : State) (r : LoadSReg) (v : Word) : (s.loadSReg r v).latches = s.latches := rfl
@[simp] theorem State.loadSReg_mem (s : State) (r : LoadSReg) (v : Word) : (s.loadSReg r v).mem = s.mem := rfl
@[simp] theorem State.loadSReg_stored (s : State) (r : LoadSReg) (v : Word) : (s.loadSReg r v).stored = s.stored := rfl
@[simp] theorem State.loadSReg_devices (s : State) (r : LoadSReg) (v : Word) : (s.loadSReg r v).devices = s.devices := rfl
@[simp] theorem State.loadSReg_env (s : State) (r : LoadSReg) (v : Word) : (s.loadSReg r v).env = s.env := rfl
@[simp] theorem State.loadSReg_draws (s : State) (r : LoadSReg) (v : Word) : (s.loadSReg r v).draws = s.draws := rfl

/-! ### setCs -/

@[simp] theorem State.setCs_gpr (s : State) (v : Word) : (s.setCs v).gpr = s.gpr := rfl
@[simp] theorem State.setCs_seg (s : State) (v : Word) : (s.setCs v).seg = { s.seg with cs := v } := rfl
@[simp] theorem State.setCs_ip (s : State) (v : Word) : (s.setCs v).ip = s.ip := rfl
@[simp] theorem State.setCs_flags (s : State) (v : Word) : (s.setCs v).flags = s.flags := rfl
@[simp] theorem State.setCs_halted (s : State) (v : Word) : (s.setCs v).halted = s.halted := rfl
@[simp] theorem State.setCs_inhibit (s : State) (v : Word) : (s.setCs v).inhibit = s.inhibit := rfl
@[simp] theorem State.setCs_latches (s : State) (v : Word) : (s.setCs v).latches = s.latches := rfl
@[simp] theorem State.setCs_mem (s : State) (v : Word) : (s.setCs v).mem = s.mem := rfl
@[simp] theorem State.setCs_stored (s : State) (v : Word) : (s.setCs v).stored = s.stored := rfl
@[simp] theorem State.setCs_devices (s : State) (v : Word) : (s.setCs v).devices = s.devices := rfl
@[simp] theorem State.setCs_env (s : State) (v : Word) : (s.setCs v).env = s.env := rfl
@[simp] theorem State.setCs_draws (s : State) (v : Word) : (s.setCs v).draws = s.draws := rfl

/-! ### logEvent -/

@[simp] theorem State.logEvent_gpr (s : State) (e : Event) : (s.logEvent e).gpr = s.gpr := rfl
@[simp] theorem State.logEvent_seg (s : State) (e : Event) : (s.logEvent e).seg = s.seg := rfl
@[simp] theorem State.logEvent_ip (s : State) (e : Event) : (s.logEvent e).ip = s.ip := rfl
@[simp] theorem State.logEvent_flags (s : State) (e : Event) : (s.logEvent e).flags = s.flags := rfl
@[simp] theorem State.logEvent_halted (s : State) (e : Event) : (s.logEvent e).halted = s.halted := rfl
@[simp] theorem State.logEvent_inhibit (s : State) (e : Event) : (s.logEvent e).inhibit = s.inhibit := rfl
@[simp] theorem State.logEvent_latches (s : State) (e : Event) : (s.logEvent e).latches = s.latches := rfl
@[simp] theorem State.logEvent_mem (s : State) (e : Event) : (s.logEvent e).mem = s.mem := rfl
@[simp] theorem State.logEvent_stored (s : State) (e : Event) : (s.logEvent e).stored = s.stored := rfl
@[simp] theorem State.logEvent_devices (s : State) (e : Event) : (s.logEvent e).devices = s.devices := rfl
@[simp] theorem State.logEvent_env (s : State) (e : Event) : (s.logEvent e).env = { s.env with events := e :: s.env.events } := rfl
@[simp] theorem State.logEvent_draws (s : State) (e : Event) : (s.logEvent e).draws = s.draws := rfl

/-! ### jumpTo -/

@[simp] theorem State.jumpTo_gpr (s : State) (v : Word) : (s.jumpTo v).gpr = s.gpr := rfl
@[simp] theorem State.jumpTo_seg (s : State) (v : Word) : (s.jumpTo v).seg = s.seg := rfl
@[simp] theorem State.jumpTo_ip (s : State) (v : Word) : (s.jumpTo v).ip = v := rfl
@[simp] theorem State.jumpTo_flags (s : State) (v : Word) : (s.jumpTo v).flags = s.flags := rfl
@[simp] theorem State.jumpTo_halted (s : State) (v : Word) : (s.jumpTo v).halted = s.halted := rfl
@[simp] theorem State.jumpTo_inhibit (s : State) (v : Word) : (s.jumpTo v).inhibit = s.inhibit := rfl
@[simp] theorem State.jumpTo_latches (s : State) (v : Word) : (s.jumpTo v).latches = s.latches := rfl
@[simp] theorem State.jumpTo_mem (s : State) (v : Word) : (s.jumpTo v).mem = s.mem := rfl
@[simp] theorem State.jumpTo_stored (s : State) (v : Word) : (s.jumpTo v).stored = [] := rfl
@[simp] theorem State.jumpTo_devices (s : State) (v : Word) : (s.jumpTo v).devices = s.devices := rfl
@[simp] theorem State.jumpTo_env (s : State) (v : Word) : (s.jumpTo v).env = s.env := rfl
@[simp] theorem State.jumpTo_draws (s : State) (v : Word) : (s.jumpTo v).draws = s.draws := rfl

/-! ### farJumpTo -/

@[simp] theorem State.farJumpTo_gpr (s : State) (c o : Word) : (s.farJumpTo c o).gpr = s.gpr := rfl
@[simp] theorem State.farJumpTo_seg (s : State) (c o : Word) : (s.farJumpTo c o).seg = { s.seg with cs := c } := rfl
@[simp] theorem State.farJumpTo_ip (s : State) (c o : Word) : (s.farJumpTo c o).ip = o := rfl
@[simp] theorem State.farJumpTo_flags (s : State) (c o : Word) : (s.farJumpTo c o).flags = s.flags := rfl
@[simp] theorem State.farJumpTo_halted (s : State) (c o : Word) : (s.farJumpTo c o).halted = s.halted := rfl
@[simp] theorem State.farJumpTo_inhibit (s : State) (c o : Word) : (s.farJumpTo c o).inhibit = s.inhibit := rfl
@[simp] theorem State.farJumpTo_latches (s : State) (c o : Word) : (s.farJumpTo c o).latches = s.latches := rfl
@[simp] theorem State.farJumpTo_mem (s : State) (c o : Word) : (s.farJumpTo c o).mem = s.mem := rfl
@[simp] theorem State.farJumpTo_stored (s : State) (c o : Word) : (s.farJumpTo c o).stored = [] := rfl
@[simp] theorem State.farJumpTo_devices (s : State) (c o : Word) : (s.farJumpTo c o).devices = s.devices := rfl
@[simp] theorem State.farJumpTo_env (s : State) (c o : Word) : (s.farJumpTo c o).env = s.env := rfl
@[simp] theorem State.farJumpTo_draws (s : State) (c o : Word) : (s.farJumpTo c o).draws = s.draws := rfl

/-! ### draw -/

@[simp] theorem State.draw_fst (s : State) : s.draw.1 = Config.draw s.draws := rfl
@[simp] theorem State.draw_gpr (s : State) : s.draw.2.gpr = s.gpr := rfl
@[simp] theorem State.draw_seg (s : State) : s.draw.2.seg = s.seg := rfl
@[simp] theorem State.draw_ip (s : State) : s.draw.2.ip = s.ip := rfl
@[simp] theorem State.draw_flags (s : State) : s.draw.2.flags = s.flags := rfl
@[simp] theorem State.draw_halted (s : State) : s.draw.2.halted = s.halted := rfl
@[simp] theorem State.draw_inhibit (s : State) : s.draw.2.inhibit = s.inhibit := rfl
@[simp] theorem State.draw_latches (s : State) : s.draw.2.latches = s.latches := rfl
@[simp] theorem State.draw_mem (s : State) : s.draw.2.mem = s.mem := rfl
@[simp] theorem State.draw_stored (s : State) : s.draw.2.stored = s.stored := rfl
@[simp] theorem State.draw_devices (s : State) : s.draw.2.devices = s.devices := rfl
@[simp] theorem State.draw_env (s : State) : s.draw.2.env = s.env := rfl
@[simp] theorem State.draw_draws (s : State) : s.draw.2.draws = s.draws + 1 := rfl

/-! ### General registers -/

@[simp] theorem Gpr.get_ax (g : Gpr) : g.get .ax = g.ax := rfl
@[simp] theorem Gpr.get_cx (g : Gpr) : g.get .cx = g.cx := rfl
@[simp] theorem Gpr.get_dx (g : Gpr) : g.get .dx = g.dx := rfl
@[simp] theorem Gpr.get_bx (g : Gpr) : g.get .bx = g.bx := rfl
@[simp] theorem Gpr.get_sp (g : Gpr) : g.get .sp = g.sp := rfl
@[simp] theorem Gpr.get_bp (g : Gpr) : g.get .bp = g.bp := rfl
@[simp] theorem Gpr.get_si (g : Gpr) : g.get .si = g.si := rfl
@[simp] theorem Gpr.get_di (g : Gpr) : g.get .di = g.di := rfl
@[simp] theorem Gpr.set_ax_ax (g : Gpr) (v : Word) : (g.set .ax v).ax = v := rfl
@[simp] theorem Gpr.set_ax_cx (g : Gpr) (v : Word) : (g.set .ax v).cx = g.cx := rfl
@[simp] theorem Gpr.set_ax_dx (g : Gpr) (v : Word) : (g.set .ax v).dx = g.dx := rfl
@[simp] theorem Gpr.set_ax_bx (g : Gpr) (v : Word) : (g.set .ax v).bx = g.bx := rfl
@[simp] theorem Gpr.set_ax_sp (g : Gpr) (v : Word) : (g.set .ax v).sp = g.sp := rfl
@[simp] theorem Gpr.set_ax_bp (g : Gpr) (v : Word) : (g.set .ax v).bp = g.bp := rfl
@[simp] theorem Gpr.set_ax_si (g : Gpr) (v : Word) : (g.set .ax v).si = g.si := rfl
@[simp] theorem Gpr.set_ax_di (g : Gpr) (v : Word) : (g.set .ax v).di = g.di := rfl
@[simp] theorem Gpr.set_cx_ax (g : Gpr) (v : Word) : (g.set .cx v).ax = g.ax := rfl
@[simp] theorem Gpr.set_cx_cx (g : Gpr) (v : Word) : (g.set .cx v).cx = v := rfl
@[simp] theorem Gpr.set_cx_dx (g : Gpr) (v : Word) : (g.set .cx v).dx = g.dx := rfl
@[simp] theorem Gpr.set_cx_bx (g : Gpr) (v : Word) : (g.set .cx v).bx = g.bx := rfl
@[simp] theorem Gpr.set_cx_sp (g : Gpr) (v : Word) : (g.set .cx v).sp = g.sp := rfl
@[simp] theorem Gpr.set_cx_bp (g : Gpr) (v : Word) : (g.set .cx v).bp = g.bp := rfl
@[simp] theorem Gpr.set_cx_si (g : Gpr) (v : Word) : (g.set .cx v).si = g.si := rfl
@[simp] theorem Gpr.set_cx_di (g : Gpr) (v : Word) : (g.set .cx v).di = g.di := rfl
@[simp] theorem Gpr.set_dx_ax (g : Gpr) (v : Word) : (g.set .dx v).ax = g.ax := rfl
@[simp] theorem Gpr.set_dx_cx (g : Gpr) (v : Word) : (g.set .dx v).cx = g.cx := rfl
@[simp] theorem Gpr.set_dx_dx (g : Gpr) (v : Word) : (g.set .dx v).dx = v := rfl
@[simp] theorem Gpr.set_dx_bx (g : Gpr) (v : Word) : (g.set .dx v).bx = g.bx := rfl
@[simp] theorem Gpr.set_dx_sp (g : Gpr) (v : Word) : (g.set .dx v).sp = g.sp := rfl
@[simp] theorem Gpr.set_dx_bp (g : Gpr) (v : Word) : (g.set .dx v).bp = g.bp := rfl
@[simp] theorem Gpr.set_dx_si (g : Gpr) (v : Word) : (g.set .dx v).si = g.si := rfl
@[simp] theorem Gpr.set_dx_di (g : Gpr) (v : Word) : (g.set .dx v).di = g.di := rfl
@[simp] theorem Gpr.set_bx_ax (g : Gpr) (v : Word) : (g.set .bx v).ax = g.ax := rfl
@[simp] theorem Gpr.set_bx_cx (g : Gpr) (v : Word) : (g.set .bx v).cx = g.cx := rfl
@[simp] theorem Gpr.set_bx_dx (g : Gpr) (v : Word) : (g.set .bx v).dx = g.dx := rfl
@[simp] theorem Gpr.set_bx_bx (g : Gpr) (v : Word) : (g.set .bx v).bx = v := rfl
@[simp] theorem Gpr.set_bx_sp (g : Gpr) (v : Word) : (g.set .bx v).sp = g.sp := rfl
@[simp] theorem Gpr.set_bx_bp (g : Gpr) (v : Word) : (g.set .bx v).bp = g.bp := rfl
@[simp] theorem Gpr.set_bx_si (g : Gpr) (v : Word) : (g.set .bx v).si = g.si := rfl
@[simp] theorem Gpr.set_bx_di (g : Gpr) (v : Word) : (g.set .bx v).di = g.di := rfl
@[simp] theorem Gpr.set_sp_ax (g : Gpr) (v : Word) : (g.set .sp v).ax = g.ax := rfl
@[simp] theorem Gpr.set_sp_cx (g : Gpr) (v : Word) : (g.set .sp v).cx = g.cx := rfl
@[simp] theorem Gpr.set_sp_dx (g : Gpr) (v : Word) : (g.set .sp v).dx = g.dx := rfl
@[simp] theorem Gpr.set_sp_bx (g : Gpr) (v : Word) : (g.set .sp v).bx = g.bx := rfl
@[simp] theorem Gpr.set_sp_sp (g : Gpr) (v : Word) : (g.set .sp v).sp = v := rfl
@[simp] theorem Gpr.set_sp_bp (g : Gpr) (v : Word) : (g.set .sp v).bp = g.bp := rfl
@[simp] theorem Gpr.set_sp_si (g : Gpr) (v : Word) : (g.set .sp v).si = g.si := rfl
@[simp] theorem Gpr.set_sp_di (g : Gpr) (v : Word) : (g.set .sp v).di = g.di := rfl
@[simp] theorem Gpr.set_bp_ax (g : Gpr) (v : Word) : (g.set .bp v).ax = g.ax := rfl
@[simp] theorem Gpr.set_bp_cx (g : Gpr) (v : Word) : (g.set .bp v).cx = g.cx := rfl
@[simp] theorem Gpr.set_bp_dx (g : Gpr) (v : Word) : (g.set .bp v).dx = g.dx := rfl
@[simp] theorem Gpr.set_bp_bx (g : Gpr) (v : Word) : (g.set .bp v).bx = g.bx := rfl
@[simp] theorem Gpr.set_bp_sp (g : Gpr) (v : Word) : (g.set .bp v).sp = g.sp := rfl
@[simp] theorem Gpr.set_bp_bp (g : Gpr) (v : Word) : (g.set .bp v).bp = v := rfl
@[simp] theorem Gpr.set_bp_si (g : Gpr) (v : Word) : (g.set .bp v).si = g.si := rfl
@[simp] theorem Gpr.set_bp_di (g : Gpr) (v : Word) : (g.set .bp v).di = g.di := rfl
@[simp] theorem Gpr.set_si_ax (g : Gpr) (v : Word) : (g.set .si v).ax = g.ax := rfl
@[simp] theorem Gpr.set_si_cx (g : Gpr) (v : Word) : (g.set .si v).cx = g.cx := rfl
@[simp] theorem Gpr.set_si_dx (g : Gpr) (v : Word) : (g.set .si v).dx = g.dx := rfl
@[simp] theorem Gpr.set_si_bx (g : Gpr) (v : Word) : (g.set .si v).bx = g.bx := rfl
@[simp] theorem Gpr.set_si_sp (g : Gpr) (v : Word) : (g.set .si v).sp = g.sp := rfl
@[simp] theorem Gpr.set_si_bp (g : Gpr) (v : Word) : (g.set .si v).bp = g.bp := rfl
@[simp] theorem Gpr.set_si_si (g : Gpr) (v : Word) : (g.set .si v).si = v := rfl
@[simp] theorem Gpr.set_si_di (g : Gpr) (v : Word) : (g.set .si v).di = g.di := rfl
@[simp] theorem Gpr.set_di_ax (g : Gpr) (v : Word) : (g.set .di v).ax = g.ax := rfl
@[simp] theorem Gpr.set_di_cx (g : Gpr) (v : Word) : (g.set .di v).cx = g.cx := rfl
@[simp] theorem Gpr.set_di_dx (g : Gpr) (v : Word) : (g.set .di v).dx = g.dx := rfl
@[simp] theorem Gpr.set_di_bx (g : Gpr) (v : Word) : (g.set .di v).bx = g.bx := rfl
@[simp] theorem Gpr.set_di_sp (g : Gpr) (v : Word) : (g.set .di v).sp = g.sp := rfl
@[simp] theorem Gpr.set_di_bp (g : Gpr) (v : Word) : (g.set .di v).bp = g.bp := rfl
@[simp] theorem Gpr.set_di_si (g : Gpr) (v : Word) : (g.set .di v).si = g.si := rfl
@[simp] theorem Gpr.set_di_di (g : Gpr) (v : Word) : (g.set .di v).di = v := rfl

/-- A write to a 16-bit register is read back, and no other register changes. -/
theorem Gpr.get_set (g : Gpr) (r q : Reg16) (v : Word) : (g.set r v).get q = if q = r then v else g.get q := by
  cases r <;> cases q <;> rfl

@[simp] theorem Gpr.get_set_self (g : Gpr) (r : Reg16) (v : Word) : (g.set r v).get r = v := by
  cases r <;> rfl

theorem Gpr.get_set_of_ne (g : Gpr) {r q : Reg16} (v : Word) (h : q ≠ r) : (g.set r v).get q = g.get q := by
  rw [Gpr.get_set, if_neg h]

/-- Two register files with equal registers are equal. -/
theorem Gpr.ext_get {g h : Gpr} (e : ∀ r, g.get r = h.get r) : g = h := by
  cases g
  cases h
  simp only [Gpr.mk.injEq]
  exact ⟨e .ax, e .cx, e .dx, e .bx, e .sp, e .bp, e .si, e .di⟩

@[simp] theorem State.reg16_setReg16 (s : State) (r q : Reg16) (v : Word) :
    (s.setReg16 r v).reg16 q = if q = r then v else s.reg16 q := Gpr.get_set s.gpr r q v

/-! ### Segment registers -/

@[simp] theorem Segs.load_cs (g : Segs) (r : LoadSReg) (v : Word) : (g.load r v).cs = g.cs := by cases r <;> rfl

@[simp] theorem Segs.load_es (g : Segs) (v : Word) : g.load .es v = { g with es := v } := rfl

@[simp] theorem Segs.load_ss (g : Segs) (v : Word) : g.load .ss v = { g with ss := v } := rfl

@[simp] theorem Segs.load_ds (g : Segs) (v : Word) : g.load .ds v = { g with ds := v } := rfl

/-! ### Bytes and words -/

/-- The bits of a word from its two bytes. -/
theorem getLsbD_wordOf (lo hi : Byte) (i : Nat) :
    (wordOf lo hi).getLsbD i = if i < 8 then lo.getLsbD i else hi.getLsbD (i - 8) :=
  BitVec.getLsbD_append (x := hi) (y := lo) (i := i)

theorem getLsbD_loByte (w : Word) (i : Nat) : (loByte w).getLsbD i = (decide (i < 8) && w.getLsbD i) := by
  simp [loByte, BitVec.getLsbD_extractLsb']

theorem getLsbD_hiByte (w : Word) (i : Nat) : (hiByte w).getLsbD i = (decide (i < 8) && w.getLsbD (8 + i)) := by
  simp [hiByte, BitVec.getLsbD_extractLsb']

@[simp] theorem loByte_wordOf (lo hi : Byte) : loByte (wordOf lo hi) = lo := by
  apply BitVec.eq_of_getLsbD_eq; intro i h
  rw [getLsbD_loByte, getLsbD_wordOf]; simp [h]

@[simp] theorem hiByte_wordOf (lo hi : Byte) : hiByte (wordOf lo hi) = hi := by
  apply BitVec.eq_of_getLsbD_eq; intro i h
  rw [getLsbD_hiByte, getLsbD_wordOf]; simp [h]

@[simp] theorem wordOf_lo_hi (w : Word) : wordOf (loByte w) (hiByte w) = w := by
  apply BitVec.eq_of_getLsbD_eq; intro i h
  rw [getLsbD_wordOf, getLsbD_loByte, getLsbD_hiByte]
  by_cases h8 : i < 8
  · simp [h8]
  · have h1 : i - 8 < 8 := by omega
    have e : 8 + (i - 8) = i := by omega
    simp [h8, h1, e]

/-- A write to an 8-bit register is read back, and no other 8-bit register changes (10_state.md R21). -/
theorem Gpr.get8_set8 (g : Gpr) (r q : Reg8) (v : Byte) : (g.set8 r v).get8 q = if q = r then v else g.get8 q := by
  cases r <;> cases q <;> simp [Gpr.get8, Gpr.set8, wholeOf, isHigh]

/-- A write to an 8-bit register leaves every 16-bit register alone but the one it is half of. -/
theorem Gpr.get_set8_of_ne (g : Gpr) (r : Reg8) (v : Byte) {q : Reg16} (h : q ≠ wholeOf r) :
    (g.set8 r v).get q = g.get q := Gpr.get_set_of_ne g _ h

@[simp] theorem State.reg8_setReg8 (s : State) (r q : Reg8) (v : Byte) :
    (s.setReg8 r v).reg8 q = if q = r then v else s.reg8 q := Gpr.get8_set8 s.gpr r q v

end Sys2Proof.Machine
end

