-- ==== Sys2Proof/Laws/Ops.lean ====
section
/-! SUPPORT. What each shared operation can do: a read changes only what the environment has said and the count of
draws; a store changes only memory, the list of stored addresses and the events. -/

namespace Sys2Proof.Machine

/-! ### sameLines -/

theorem sameLines_refl (s : State) : sameLines s s := ⟨rfl, rfl, rfl, rfl, rfl⟩

theorem sameLines_trans {s t u : State} (h : sameLines s t) (k : sameLines t u) : sameLines s u :=
  ⟨k.1.trans h.1, k.2.1.trans h.2.1, k.2.2.1.trans h.2.2.1, k.2.2.2.1.trans h.2.2.2.1,
    k.2.2.2.2.trans h.2.2.2.2⟩

/-- Only `env` matters to `sameLines`. -/
theorem sameLines_of_env {s t u : State} (e : u.env = t.env) (h : sameLines s t) : sameLines s u := by
  unfold sameLines at *
  rw [e]
  exact h

theorem sameLines_logEvent (s : State) (e : Event) : sameLines s (s.logEvent e) := ⟨rfl, rfl, rfl, rfl, rfl⟩

theorem sameLines_draw (s : State) : sameLines s s.draw.2 := ⟨rfl, rfl, rfl, rfl, rfl⟩

/-! ### Reads

`Quiet s t`: `t` is `s` but for what the environment has answered, the events and the count of draws. -/

/-- What a read may change. -/
def Quiet (s t : State) : Prop :=
  (t.gpr = s.gpr ∧ t.seg = s.seg ∧ t.ip = s.ip ∧ t.flags = s.flags ∧ t.halted = s.halted)
    ∧ (t.inhibit = s.inhibit ∧ t.latches = s.latches ∧ t.mem = s.mem ∧ t.stored = s.stored ∧ t.devices = s.devices)
    ∧ sameLines s t

theorem Quiet.refl (s : State) : Quiet s s :=
  ⟨⟨rfl, rfl, rfl, rfl, rfl⟩, ⟨rfl, rfl, rfl, rfl, rfl⟩, sameLines_refl s⟩

theorem Quiet.trans {s t u : State} (h : Quiet s t) (k : Quiet t u) : Quiet s u := by
  obtain ⟨⟨a1, a2, a3, a4, a5⟩, ⟨b1, b2, b3, b4, b5⟩, c⟩ := h
  obtain ⟨⟨d1, d2, d3, d4, d5⟩, ⟨e1, e2, e3, e4, e5⟩, f⟩ := k
  exact ⟨⟨d1.trans a1, d2.trans a2, d3.trans a3, d4.trans a4, d5.trans a5⟩,
    ⟨e1.trans b1, e2.trans b2, e3.trans b3, e4.trans b4, e5.trans b5⟩, sameLines_trans c f⟩

theorem Quiet.nextAnswer (s : State) : Quiet s s.nextAnswer.2 := by
  unfold State.nextAnswer
  split <;> exact ⟨⟨rfl, rfl, rfl, rfl, rfl⟩, ⟨rfl, rfl, rfl, rfl, rfl⟩, ⟨rfl, rfl, rfl, rfl, rfl⟩⟩

theorem Quiet.logEvent (s : State) (e : Event) : Quiet s (s.logEvent e) :=
  ⟨⟨rfl, rfl, rfl, rfl, rfl⟩, ⟨rfl, rfl, rfl, rfl, rfl⟩, sameLines_logEvent s e⟩

theorem Quiet.draw (s : State) : Quiet s s.draw.2 :=
  ⟨⟨rfl, rfl, rfl, rfl, rfl⟩, ⟨rfl, rfl, rfl, rfl, rfl⟩, sameLines_draw s⟩

theorem Quiet.readByte (s : State) (a : Nat) : Quiet s (s.readByte a).2 := by
  unfold State.readByte
  split
  · exact (Quiet.nextAnswer s).trans (Quiet.logEvent _ _)
  · exact Quiet.refl s

theorem Quiet.memRead8 (s : State) (seg off : Word) : Quiet s (s.memRead8 seg off).2 := Quiet.readByte s _

theorem Quiet.memRead16 (s : State) (seg off : Word) : Quiet s (s.memRead16 seg off).2 :=
  (Quiet.readByte s _).trans (Quiet.readByte _ _)

theorem Quiet.fetchBytes (s : State) (seg off : Word) (k n : Nat) : Quiet s (s.fetchBytes seg off k n).2 := by
  induction n generalizing s k with
  | zero => exact Quiet.refl s
  | succ n ih => exact (Quiet.readByte s _).trans (ih _ _)

theorem Quiet.ioRead8 (s : State) (port : Word) : Quiet s (s.ioRead8 port).2 :=
  (Quiet.nextAnswer s).trans (Quiet.logEvent _ _)

theorem Quiet.ioRead16 (s : State) (port : Word) : Quiet s (s.ioRead16 port).2 :=
  (Quiet.nextAnswer s).trans (Quiet.logEvent _ _)

theorem Quiet.read8 (s : State) (l : Loc Reg8) : Quiet s (s.read8 l).2 := by
  cases l with
  | reg r => exact Quiet.refl s
  | mem seg off => exact Quiet.memRead8 s seg off

theorem Quiet.read16 (s : State) (l : Loc Reg16) : Quiet s (s.read16 l).2 := by
  cases l with
  | reg r => exact Quiet.refl s
  | mem seg off => exact Quiet.memRead16 s seg off

theorem Quiet.readPointer (s : State) (m : Mem) : Quiet s (s.readPointer m).2 :=
  (Quiet.memRead16 s _ _).trans (Quiet.memRead16 _ _ _)


@[simp] theorem State.nextAnswer_gpr (s : State) : s.nextAnswer.2.gpr = s.gpr := (Quiet.nextAnswer s).1.1
@[simp] theorem State.nextAnswer_seg (s : State) : s.nextAnswer.2.seg = s.seg := (Quiet.nextAnswer s).1.2.1
@[simp] theorem State.nextAnswer_ip (s : State) : s.nextAnswer.2.ip = s.ip := (Quiet.nextAnswer s).1.2.2.1
@[simp] theorem State.nextAnswer_flags (s : State) : s.nextAnswer.2.flags = s.flags := (Quiet.nextAnswer s).1.2.2.2.1
@[simp] theorem State.nextAnswer_halted (s : State) : s.nextAnswer.2.halted = s.halted := (Quiet.nextAnswer s).1.2.2.2.2
@[simp] theorem State.nextAnswer_inhibit (s : State) : s.nextAnswer.2.inhibit = s.inhibit := (Quiet.nextAnswer s).2.1.1
@[simp] theorem State.nextAnswer_latches (s : State) : s.nextAnswer.2.latches = s.latches := (Quiet.nextAnswer s).2.1.2.1
@[simp] theorem State.nextAnswer_mem (s : State) : s.nextAnswer.2.mem = s.mem := (Quiet.nextAnswer s).2.1.2.2.1
@[simp] theorem State.nextAnswer_stored (s : State) : s.nextAnswer.2.stored = s.stored := (Quiet.nextAnswer s).2.1.2.2.2.1
@[simp] theorem State.nextAnswer_devices (s : State) : s.nextAnswer.2.devices = s.devices := (Quiet.nextAnswer s).2.1.2.2.2.2

@[simp] theorem State.readByte_gpr (s : State) (a : Nat) : (s.readByte a).2.gpr = s.gpr := (Quiet.readByte s a).1.1
@[simp] theorem State.readByte_seg (s : State) (a : Nat) : (s.readByte a).2.seg = s.seg := (Quiet.readByte s a).1.2.1
@[simp] theorem State.readByte_ip (s : State) (a : Nat) : (s.readByte a).2.ip = s.ip := (Quiet.readByte s a).1.2.2.1
@[simp] theorem State.readByte_flags (s : State) (a : Nat) : (s.readByte a).2.flags = s.flags := (Quiet.readByte s a).1.2.2.2.1
@[simp] theorem State.readByte_halted (s : State) (a : Nat) : (s.readByte a).2.halted = s.halted := (Quiet.readByte s a).1.2.2.2.2
@[simp] theorem State.readByte_inhibit (s : State) (a : Nat) : (s.readByte a).2.inhibit = s.inhibit := (Quiet.readByte s a).2.1.1
@[simp] theorem State.readByte_latches (s : State) (a : Nat) : (s.readByte a).2.latches = s.latches := (Quiet.readByte s a).2.1.2.1
@[simp] theorem State.readByte_mem (s : State) (a : Nat) : (s.readByte a).2.mem = s.mem := (Quiet.readByte s a).2.1.2.2.1
@[simp] theorem State.readByte_stored (s : State) (a : Nat) : (s.readByte a).2.stored = s.stored := (Quiet.readByte s a).2.1.2.2.2.1
@[simp] theorem State.readByte_devices (s : State) (a : Nat) : (s.readByte a).2.devices = s.devices := (Quiet.readByte s a).2.1.2.2.2.2

@[simp] theorem State.memRead8_gpr (s : State) (c o : Word) : (s.memRead8 c o).2.gpr = s.gpr := (Quiet.memRead8 s c o).1.1
@[simp] theorem State.memRead8_seg (s : State) (c o : Word) : (s.memRead8 c o).2.seg = s.seg := (Quiet.memRead8 s c o).1.2.1
@[simp] theorem State.memRead8_ip (s : State) (c o : Word) : (s.memRead8 c o).2.ip = s.ip := (Quiet.memRead8 s c o).1.2.2.1
@[simp] theorem State.memRead8_flags (s : State) (c o : Word) : (s.memRead8 c o).2.flags = s.flags := (Quiet.memRead8 s c o).1.2.2.2.1
@[simp] theorem State.memRead8_halted (s : State) (c o : Word) : (s.memRead8 c o).2.halted = s.halted := (Quiet.memRead8 s c o).1.2.2.2.2
@[simp] theorem State.memRead8_inhibit (s : State) (c o : Word) : (s.memRead8 c o).2.inhibit = s.inhibit := (Quiet.memRead8 s c o).2.1.1
@[simp] theorem State.memRead8_latches (s : State) (c o : Word) : (s.memRead8 c o).2.latches = s.latches := (Quiet.memRead8 s c o).2.1.2.1
@[simp] theorem State.memRead8_mem (s : State) (c o : Word) : (s.memRead8 c o).2.mem = s.mem := (Quiet.memRead8 s c o).2.1.2.2.1
@[simp] theorem State.memRead8_stored (s : State) (c o : Word) : (s.memRead8 c o).2.stored = s.stored := (Quiet.memRead8 s c o).2.1.2.2.2.1
@[simp] theorem State.memRead8_devices (s : State) (c o : Word) : (s.memRead8 c o).2.devices = s.devices := (Quiet.memRead8 s c o).2.1.2.2.2.2

@[simp] theorem State.memRead16_gpr (s : State) (c o : Word) : (s.memRead16 c o).2.gpr = s.gpr := (Quiet.memRead16 s c o).1.1
@[simp] theorem State.memRead16_seg (s : State) (c o : Word) : (s.memRead16 c o).2.seg = s.seg := (Quiet.memRead16 s c o).1.2.1
@[simp] theorem State.memRead16_ip (s : State) (c o : Word) : (s.memRead16 c o).2.ip = s.ip := (Quiet.memRead16 s c o).1.2.2.1
@[simp] theorem State.memRead16_flags (s : State) (c o : Word) : (s.memRead16 c o).2.flags = s.flags := (Quiet.memRead16 s c o).1.2.2.2.1
@[simp] theorem State.memRead16_halted (s : State) (c o : Word) : (s.memRead16 c o).2.halted = s.halted := (Quiet.memRead16 s c o).1.2.2.2.2
@[simp] theorem State.memRead16_inhibit (s : State) (c o : Word) : (s.memRead16 c o).2.inhibit = s.inhibit := (Quiet.memRead16 s c o).2.1.1
@[simp] theorem State.memRead16_latches (s : State) (c o : Word) : (s.memRead16 c o).2.latches = s.latches := (Quiet.memRead16 s c o).2.1.2.1
@[simp] theorem State.memRead16_mem (s : State) (c o : Word) : (s.memRead16 c o).2.mem = s.mem := (Quiet.memRead16 s c o).2.1.2.2.1
@[simp] theorem State.memRead16_stored (s : State) (c o : Word) : (s.memRead16 c o).2.stored = s.stored := (Quiet.memRead16 s c o).2.1.2.2.2.1
@[simp] theorem State.memRead16_devices (s : State) (c o : Word) : (s.memRead16 c o).2.devices = s.devices := (Quiet.memRead16 s c o).2.1.2.2.2.2

@[simp] theorem State.ioRead8_gpr (s : State) (p : Word) : (s.ioRead8 p).2.gpr = s.gpr := (Quiet.ioRead8 s p).1.1
@[simp] theorem State.ioRead8_seg (s : State) (p : Word) : (s.ioRead8 p).2.seg = s.seg := (Quiet.ioRead8 s p).1.2.1
@[simp] theorem State.ioRead8_ip (s : State) (p : Word) : (s.ioRead8 p).2.ip = s.ip := (Quiet.ioRead8 s p).1.2.2.1
@[simp] theorem State.ioRead8_flags (s : State) (p : Word) : (s.ioRead8 p).2.flags = s.flags := (Quiet.ioRead8 s p).1.2.2.2.1
@[simp] theorem State.ioRead8_halted (s : State) (p : Word) : (s.ioRead8 p).2.halted = s.halted := (Quiet.ioRead8 s p).1.2.2.2.2
@[simp] theorem State.ioRead8_inhibit (s : State) (p : Word) : (s.ioRead8 p).2.inhibit = s.inhibit := (Quiet.ioRead8 s p).2.1.1
@[simp] theorem State.ioRead8_latches (s : State) (p : Word) : (s.ioRead8 p).2.latches = s.latches := (Quiet.ioRead8 s p).2.1.2.1
@[simp] theorem State.ioRead8_mem (s : State) (p : Word) : (s.ioRead8 p).2.mem = s.mem := (Quiet.ioRead8 s p).2.1.2.2.1
@[simp] theorem State.ioRead8_stored (s : State) (p : Word) : (s.ioRead8 p).2.stored = s.stored := (Quiet.ioRead8 s p).2.1.2.2.2.1
@[simp] theorem State.ioRead8_devices (s : State) (p : Word) : (s.ioRead8 p).2.devices = s.devices := (Quiet.ioRead8 s p).2.1.2.2.2.2

@[simp] theorem State.ioRead16_gpr (s : State) (p : Word) : (s.ioRead16 p).2.gpr = s.gpr := (Quiet.ioRead16 s p).1.1
@[simp] theorem State.ioRead16_seg (s : State) (p : Word) : (s.ioRead16 p).2.seg = s.seg := (Quiet.ioRead16 s p).1.2.1
@[simp] theorem State.ioRead16_ip (s : State) (p : Word) : (s.ioRead16 p).2.ip = s.ip := (Quiet.ioRead16 s p).1.2.2.1
@[simp] theorem State.ioRead16_flags (s : State) (p : Word) : (s.ioRead16 p).2.flags = s.flags := (Quiet.ioRead16 s p).1.2.2.2.1
@[simp] theorem State.ioRead16_halted (s : State) (p : Word) : (s.ioRead16 p).2.halted = s.halted := (Quiet.ioRead16 s p).1.2.2.2.2
@[simp] theorem State.ioRead16_inhibit (s : State) (p : Word) : (s.ioRead16 p).2.inhibit = s.inhibit := (Quiet.ioRead16 s p).2.1.1
@[simp] theorem State.ioRead16_latches (s : State) (p : Word) : (s.ioRead16 p).2.latches = s.latches := (Quiet.ioRead16 s p).2.1.2.1
@[simp] theorem State.ioRead16_mem (s : State) (p : Word) : (s.ioRead16 p).2.mem = s.mem := (Quiet.ioRead16 s p).2.1.2.2.1
@[simp] theorem State.ioRead16_stored (s : State) (p : Word) : (s.ioRead16 p).2.stored = s.stored := (Quiet.ioRead16 s p).2.1.2.2.2.1
@[simp] theorem State.ioRead16_devices (s : State) (p : Word) : (s.ioRead16 p).2.devices = s.devices := (Quiet.ioRead16 s p).2.1.2.2.2.2

@[simp] theorem State.read8_gpr (s : State) (l : Loc Reg8) : (s.read8 l).2.gpr = s.gpr := (Quiet.read8 s l).1.1
@[simp] theorem State.read8_seg (s : State) (l : Loc Reg8) : (s.read8 l).2.seg = s.seg := (Quiet.read8 s l).1.2.1
@[simp] theorem State.read8_ip (s : State) (l : Loc Reg8) : (s.read8 l).2.ip = s.ip := (Quiet.read8 s l).1.2.2.1
@[simp] theorem State.read8_flags (s : State) (l : Loc Reg8) : (s.read8 l).2.flags = s.flags := (Quiet.read8 s l).1.2.2.2.1
@[simp] theorem State.read8_halted (s : State) (l : Loc Reg8) : (s.read8 l).2.halted = s.halted := (Quiet.read8 s l).1.2.2.2.2
@[simp] theorem State.read8_inhibit (s : State) (l : Loc Reg8) : (s.read8 l).2.inhibit = s.inhibit := (Quiet.read8 s l).2.1.1
@[simp] theorem State.read8_latches (s : State) (l : Loc Reg8) : (s.read8 l).2.latches = s.latches := (Quiet.read8 s l).2.1.2.1
@[simp] theorem State.read8_mem (s : State) (l : Loc Reg8) : (s.read8 l).2.mem = s.mem := (Quiet.read8 s l).2.1.2.2.1
@[simp] theorem State.read8_stored (s : State) (l : Loc Reg8) : (s.read8 l).2.stored = s.stored := (Quiet.read8 s l).2.1.2.2.2.1
@[simp] theorem State.read8_devices (s : State) (l : Loc Reg8) : (s.read8 l).2.devices = s.devices := (Quiet.read8 s l).2.1.2.2.2.2

@[simp] theorem State.read16_gpr (s : State) (l : Loc Reg16) : (s.read16 l).2.gpr = s.gpr := (Quiet.read16 s l).1.1
@[simp] theorem State.read16_seg (s : State) (l : Loc Reg16) : (s.read16 l).2.seg = s.seg := (Quiet.read16 s l).1.2.1
@[simp] theorem State.read16_ip (s : State) (l : Loc Reg16) : (s.read16 l).2.ip = s.ip := (Quiet.read16 s l).1.2.2.1
@[simp] theorem State.read16_flags (s : State) (l : Loc Reg16) : (s.read16 l).2.flags = s.flags := (Quiet.read16 s l).1.2.2.2.1
@[simp] theorem State.read16_halted (s : State) (l : Loc Reg16) : (s.read16 l).2.halted = s.halted := (Quiet.read16 s l).1.2.2.2.2
@[simp] theorem State.read16_inhibit (s : State) (l : Loc Reg16) : (s.read16 l).2.inhibit = s.inhibit := (Quiet.read16 s l).2.1.1
@[simp] theorem State.read16_latches (s : State) (l : Loc Reg16) : (s.read16 l).2.latches = s.latches := (Quiet.read16 s l).2.1.2.1
@[simp] theorem State.read16_mem (s : State) (l : Loc Reg16) : (s.read16 l).2.mem = s.mem := (Quiet.read16 s l).2.1.2.2.1
@[simp] theorem State.read16_stored (s : State) (l : Loc Reg16) : (s.read16 l).2.stored = s.stored := (Quiet.read16 s l).2.1.2.2.2.1
@[simp] theorem State.read16_devices (s : State) (l : Loc Reg16) : (s.read16 l).2.devices = s.devices := (Quiet.read16 s l).2.1.2.2.2.2

@[simp] theorem State.readPointer_gpr (s : State) (m : Mem) : (s.readPointer m).2.gpr = s.gpr := (Quiet.readPointer s m).1.1
@[simp] theorem State.readPointer_seg (s : State) (m : Mem) : (s.readPointer m).2.seg = s.seg := (Quiet.readPointer s m).1.2.1
@[simp] theorem State.readPointer_ip (s : State) (m : Mem) : (s.readPointer m).2.ip = s.ip := (Quiet.readPointer s m).1.2.2.1
@[simp] theorem State.readPointer_flags (s : State) (m : Mem) : (s.readPointer m).2.flags = s.flags := (Quiet.readPointer s m).1.2.2.2.1
@[simp] theorem State.readPointer_halted (s : State) (m : Mem) : (s.readPointer m).2.halted = s.halted := (Quiet.readPointer s m).1.2.2.2.2
@[simp] theorem State.readPointer_inhibit (s : State) (m : Mem) : (s.readPointer m).2.inhibit = s.inhibit := (Quiet.readPointer s m).2.1.1
@[simp] theorem State.readPointer_latches (s : State) (m : Mem) : (s.readPointer m).2.latches = s.latches := (Quiet.readPointer s m).2.1.2.1
@[simp] theorem State.readPointer_mem (s : State) (m : Mem) : (s.readPointer m).2.mem = s.mem := (Quiet.readPointer s m).2.1.2.2.1
@[simp] theorem State.readPointer_stored (s : State) (m : Mem) : (s.readPointer m).2.stored = s.stored := (Quiet.readPointer s m).2.1.2.2.2.1
@[simp] theorem State.readPointer_devices (s : State) (m : Mem) : (s.readPointer m).2.devices = s.devices := (Quiet.readPointer s m).2.1.2.2.2.2

@[simp] theorem State.fetchBytes_gpr (s : State) (c o : Word) (k n : Nat) : (s.fetchBytes c o k n).2.gpr = s.gpr := (Quiet.fetchBytes s c o k n).1.1
@[simp] theorem State.fetchBytes_seg (s : State) (c o : Word) (k n : Nat) : (s.fetchBytes c o k n).2.seg = s.seg := (Quiet.fetchBytes s c o k n).1.2.1
@[simp] theorem State.fetchBytes_ip (s : State) (c o : Word) (k n : Nat) : (s.fetchBytes c o k n).2.ip = s.ip := (Quiet.fetchBytes s c o k n).1.2.2.1
@[simp] theorem State.fetchBytes_flags (s : State) (c o : Word) (k n : Nat) : (s.fetchBytes c o k n).2.flags = s.flags := (Quiet.fetchBytes s c o k n).1.2.2.2.1
@[simp] theorem State.fetchBytes_halted (s : State) (c o : Word) (k n : Nat) : (s.fetchBytes c o k n).2.halted = s.halted := (Quiet.fetchBytes s c o k n).1.2.2.2.2
@[simp] theorem State.fetchBytes_inhibit (s : State) (c o : Word) (k n : Nat) : (s.fetchBytes c o k n).2.inhibit = s.inhibit := (Quiet.fetchBytes s c o k n).2.1.1
@[simp] theorem State.fetchBytes_latches (s : State) (c o : Word) (k n : Nat) : (s.fetchBytes c o k n).2.latches = s.latches := (Quiet.fetchBytes s c o k n).2.1.2.1
@[simp] theorem State.fetchBytes_mem (s : State) (c o : Word) (k n : Nat) : (s.fetchBytes c o k n).2.mem = s.mem := (Quiet.fetchBytes s c o k n).2.1.2.2.1
@[simp] theorem State.fetchBytes_stored (s : State) (c o : Word) (k n : Nat) : (s.fetchBytes c o k n).2.stored = s.stored := (Quiet.fetchBytes s c o k n).2.1.2.2.2.1
@[simp] theorem State.fetchBytes_devices (s : State) (c o : Word) (k n : Nat) : (s.fetchBytes c o k n).2.devices = s.devices := (Quiet.fetchBytes s c o k n).2.1.2.2.2.2

/-- A read of plain memory answers the byte there and changes nothing. -/
theorem State.readByte_plain {s : State} {a : Nat} (h : s.isDevice a = false) :
    s.readByte a = (Memory.read s.mem a, s) := by
  simp [State.readByte, h]

theorem State.memRead8_plain {s : State} {seg off : Word} (h : s.isDevice (byteAddr seg off 0) = false) :
    s.memRead8 seg off = (Memory.read s.mem (byteAddr seg off 0), s) := State.readByte_plain h

theorem State.memRead16_plain {s : State} {seg off : Word} (h0 : s.isDevice (byteAddr seg off 0) = false)
    (h1 : s.isDevice (byteAddr seg off 1) = false) :
    s.memRead16 seg off = (wordAt s.mem (byteAddr seg off 0) (byteAddr seg off 1), s) := by
  simp [State.memRead16, State.readByte_plain h0, State.readByte_plain h1, wordAt]

@[simp] theorem State.isDevice_nil {s : State} (h : s.devices = []) (a : Nat) : s.isDevice a = false := by
  simp [State.isDevice, h]

/-- Only the windows decide what is a device. -/
theorem State.isDevice_congr {s t : State} (h : t.devices = s.devices) (a : Nat) : t.isDevice a = s.isDevice a := by
  unfold State.isDevice
  rw [h]

/-! ### Stores -/


@[simp] theorem State.writeByte_gpr (s : State) (a : Nat) (b : Byte) : (s.writeByte a b).gpr = s.gpr := by
  unfold State.writeByte
  split <;> rfl
@[simp] theorem State.writeByte_seg (s : State) (a : Nat) (b : Byte) : (s.writeByte a b).seg = s.seg := by
  unfold State.writeByte
  split <;> rfl
@[simp] theorem State.writeByte_ip (s : State) (a : Nat) (b : Byte) : (s.writeByte a b).ip = s.ip := by
  unfold State.writeByte
  split <;> rfl
@[simp] theorem State.writeByte_flags (s : State) (a : Nat) (b : Byte) : (s.writeByte a b).flags = s.flags := by
  unfold State.writeByte
  split <;> rfl
@[simp] theorem State.writeByte_halted (s : State) (a : Nat) (b : Byte) : (s.writeByte a b).halted = s.halted := by
  unfold State.writeByte
  split <;> rfl
@[simp] theorem State.writeByte_inhibit (s : State) (a : Nat) (b : Byte) : (s.writeByte a b).inhibit = s.inhibit := by
  unfold State.writeByte
  split <;> rfl
@[simp] theorem State.writeByte_latches (s : State) (a : Nat) (b : Byte) : (s.writeByte a b).latches = s.latches := by
  unfold State.writeByte
  split <;> rfl
@[simp] theorem State.writeByte_devices (s : State) (a : Nat) (b : Byte) : (s.writeByte a b).devices = s.devices := by
  unfold State.writeByte
  split <;> rfl
@[simp] theorem State.writeByte_draws (s : State) (a : Nat) (b : Byte) : (s.writeByte a b).draws = s.draws := by
  unfold State.writeByte
  split <;> rfl
@[simp] theorem State.memWrite8_gpr (s : State) (c o : Word) (v : Byte) : (s.memWrite8 c o v).gpr = s.gpr := by
  simp [State.memWrite8]
@[simp] theorem State.memWrite8_seg (s : State) (c o : Word) (v : Byte) : (s.memWrite8 c o v).seg = s.seg := by
  simp [State.memWrite8]
@[simp] theorem State.memWrite8_ip (s : State) (c o : Word) (v : Byte) : (s.memWrite8 c o v).ip = s.ip := by
  simp [State.memWrite8]
@[simp] theorem State.memWrite8_flags (s : State) (c o : Word) (v : Byte) : (s.memWrite8 c o v).flags = s.flags := by
  simp [State.memWrite8]
@[simp] theorem State.memWrite8_halted (s : State) (c o : Word) (v : Byte) : (s.memWrite8 c o v).halted = s.halted := by
  simp [State.memWrite8]
@[simp] theorem State.memWrite8_inhibit (s : State) (c o : Word) (v : Byte) : (s.memWrite8 c o v).inhibit = s.inhibit := by
  simp [State.memWrite8]
@[simp] theorem State.memWrite8_latches (s : State) (c o : Word) (v : Byte) : (s.memWrite8 c o v).latches = s.latches := by
  simp [State.memWrite8]
@[simp] theorem State.memWrite8_devices (s : State) (c o : Word) (v : Byte) : (s.memWrite8 c o v).devices = s.devices := by
  simp [State.memWrite8]
@[simp] theorem State.memWrite8_draws (s : State) (c o : Word) (v : Byte) : (s.memWrite8 c o v).draws = s.draws := by
  simp [State.memWrite8]
@[simp] theorem State.memWrite16_gpr (s : State) (c o : Word) (v : Word) : (s.memWrite16 c o v).gpr = s.gpr := by
  simp [State.memWrite16]
@[simp] theorem State.memWrite16_seg (s : State) (c o : Word) (v : Word) : (s.memWrite16 c o v).seg = s.seg := by
  simp [State.memWrite16]
@[simp] theorem State.memWrite16_ip (s : State) (c o : Word) (v : Word) : (s.memWrite16 c o v).ip = s.ip := by
  simp [State.memWrite16]
@[simp] theorem State.memWrite16_flags (s : State) (c o : Word) (v : Word) : (s.memWrite16 c o v).flags = s.flags := by
  simp [State.memWrite16]
@[simp] theorem State.memWrite16_halted (s : State) (c o : Word) (v : Word) : (s.memWrite16 c o v).halted = s.halted := by
  simp [State.memWrite16]
@[simp] theorem State.memWrite16_inhibit (s : State) (c o : Word) (v : Word) : (s.memWrite16 c o v).inhibit = s.inhibit := by
  simp [State.memWrite16]
@[simp] theorem State.memWrite16_latches (s : State) (c o : Word) (v : Word) : (s.memWrite16 c o v).latches = s.latches := by
  simp [State.memWrite16]
@[simp] theorem State.memWrite16_devices (s : State) (c o : Word) (v : Word) : (s.memWrite16 c o v).devices = s.devices := by
  simp [State.memWrite16]
@[simp] theorem State.memWrite16_draws (s : State) (c o : Word) (v : Word) : (s.memWrite16 c o v).draws = s.draws := by
  simp [State.memWrite16]
@[simp] theorem State.push16_gpr (s : State) (v : Word) : (s.push16 v).gpr = { s.gpr with sp := s.gpr.sp - 2 } := by
  simp [State.push16, Gpr.set]
@[simp] theorem State.push16_seg (s : State) (v : Word) : (s.push16 v).seg = s.seg := by
  simp [State.push16]
@[simp] theorem State.push16_ip (s : State) (v : Word) : (s.push16 v).ip = s.ip := by
  simp [State.push16]
@[simp] theorem State.push16_flags (s : State) (v : Word) : (s.push16 v).flags = s.flags := by
  simp [State.push16]
@[simp] theorem State.push16_halted (s : State) (v : Word) : (s.push16 v).halted = s.halted := by
  simp [State.push16]
@[simp] theorem State.push16_inhibit (s : State) (v : Word) : (s.push16 v).inhibit = s.inhibit := by
  simp [State.push16]
@[simp] theorem State.push16_latches (s : State) (v : Word) : (s.push16 v).latches = s.latches := by
  simp [State.push16]
@[simp] theorem State.push16_devices (s : State) (v : Word) : (s.push16 v).devices = s.devices := by
  simp [State.push16]
@[simp] theorem State.push16_draws (s : State) (v : Word) : (s.push16 v).draws = s.draws := by
  simp [State.push16]
@[simp] theorem State.pop16_gpr (s : State) : s.pop16.2.gpr = { s.gpr with sp := s.gpr.sp + 2 } := by
  simp [State.pop16, Gpr.set]
@[simp] theorem State.pop16_seg (s : State) : s.pop16.2.seg = s.seg := by
  simp [State.pop16]
@[simp] theorem State.pop16_ip (s : State) : s.pop16.2.ip = s.ip := by
  simp [State.pop16]
@[simp] theorem State.pop16_flags (s : State) : s.pop16.2.flags = s.flags := by
  simp [State.pop16]
@[simp] theorem State.pop16_halted (s : State) : s.pop16.2.halted = s.halted := by
  simp [State.pop16]
@[simp] theorem State.pop16_inhibit (s : State) : s.pop16.2.inhibit = s.inhibit := by
  simp [State.pop16]
@[simp] theorem State.pop16_latches (s : State) : s.pop16.2.latches = s.latches := by
  simp [State.pop16]
@[simp] theorem State.pop16_mem (s : State) : s.pop16.2.mem = s.mem := by
  simp [State.pop16]
@[simp] theorem State.pop16_stored (s : State) : s.pop16.2.stored = s.stored := by
  simp [State.pop16]
@[simp] theorem State.pop16_devices (s : State) : s.pop16.2.devices = s.devices := by
  simp [State.pop16]

theorem sameLines_writeByte (s : State) (a : Nat) (b : Byte) : sameLines s (s.writeByte a b) := by
  unfold State.writeByte
  split
  · exact sameLines_logEvent s _
  · exact ⟨rfl, rfl, rfl, rfl, rfl⟩

theorem sameLines_memWrite8 (s : State) (seg off : Word) (v : Byte) : sameLines s (s.memWrite8 seg off v) :=
  sameLines_writeByte s _ v

theorem sameLines_memWrite16 (s : State) (seg off : Word) (v : Word) : sameLines s (s.memWrite16 seg off v) :=
  sameLines_trans (sameLines_writeByte s _ _) (sameLines_writeByte _ _ _)

theorem sameLines_push16 (s : State) (v : Word) : sameLines s (s.push16 v) :=
  sameLines_trans (sameLines_of_env rfl (sameLines_refl s)) (sameLines_memWrite16 _ _ _ _)

theorem sameLines_pop16 (s : State) : sameLines s s.pop16.2 :=
  sameLines_of_env rfl (Quiet.memRead16 s s.seg.ss s.gpr.sp).2.2

/-- What a stored byte does to memory. -/
theorem State.read_writeByte (s : State) (a : Nat) (b : Byte) (x : Nat) :
    Memory.read (s.writeByte a b).mem x =
      if s.isDevice a then Memory.read s.mem x else if x = a then b else Memory.read s.mem x := by
  unfold State.writeByte
  split
  · rfl
  · simp [Memory.read_write]

theorem storedByte_memWrite8 (s : State) (seg off : Word) (v : Byte) :
    storedByte s (s.memWrite8 seg off v) seg off v := by
  intro x
  rw [State.memWrite8, State.read_writeByte]
  by_cases hx : x = byteAddr seg off 0
  · subst hx; simp
  · simp [hx]

theorem storedWord_memWrite16 (s : State) (seg off : Word) (v : Word) :
    storedWord s (s.memWrite16 seg off v) seg off v := by
  intro x
  have hd : ∀ y, (s.writeByte (byteAddr seg off 0) (loByte v)).isDevice y = s.isDevice y :=
    State.isDevice_congr (by simp)
  rw [State.memWrite16, State.read_writeByte, State.read_writeByte, hd]
  by_cases h1 : x = byteAddr seg off 1
  · subst h1
    by_cases hx : byteAddr seg off 1 = byteAddr seg off 0
    · rw [← hx]
      cases s.isDevice (byteAddr seg off 1) <;> simp
    · simp [hx]
  · by_cases h0 : x = byteAddr seg off 0
    · subst h0
      simp [h1]
    · simp [h0, h1]

theorem pushed_push16 (s : State) (v : Word) : pushed s (s.push16 v) v := by
  refine ⟨State.push16_gpr s v, ?_⟩
  intro x
  exact storedWord_memWrite16 (s.setReg16 .sp (s.gpr.sp - 2)) s.seg.ss (s.gpr.sp - 2) v x

/-! ### Operands -/

theorem wrote8_write8 (s : State) (l : Loc Reg8) (v : Byte) : wrote8 s (s.write8 l v) l v := by
  cases l with
  | reg r =>
    refine ⟨fun q => State.reg8_setReg8 s r q v, ?_, fun x => rfl⟩
    intro q hq
    exact Gpr.get_set8_of_ne s.gpr r v (by simpa using hq)
  | mem seg off => exact ⟨State.memWrite8_gpr s seg off v, storedByte_memWrite8 s seg off v⟩

theorem wrote16_write16 (s : State) (l : Loc Reg16) (v : Word) : wrote16 s (s.write16 l v) l v := by
  cases l with
  | reg r => exact ⟨fun q => State.reg16_setReg16 s r q v, fun x => rfl⟩
  | mem seg off => exact ⟨State.memWrite16_gpr s seg off v, storedWord_memWrite16 s seg off v⟩

@[simp] theorem State.write8_seg (s : State) (l : Loc Reg8) (v : Byte) : (s.write8 l v).seg = s.seg := by
  cases l <;> simp [State.write8]
@[simp] theorem State.write8_ip (s : State) (l : Loc Reg8) (v : Byte) : (s.write8 l v).ip = s.ip := by
  cases l <;> simp [State.write8]
@[simp] theorem State.write8_flags (s : State) (l : Loc Reg8) (v : Byte) : (s.write8 l v).flags = s.flags := by
  cases l <;> simp [State.write8]
@[simp] theorem State.write8_halted (s : State) (l : Loc Reg8) (v : Byte) : (s.write8 l v).halted = s.halted := by
  cases l <;> simp [State.write8]
@[simp] theorem State.write8_inhibit (s : State) (l : Loc Reg8) (v : Byte) : (s.write8 l v).inhibit = s.inhibit := by
  cases l <;> simp [State.write8]
@[simp] theorem State.write8_latches (s : State) (l : Loc Reg8) (v : Byte) : (s.write8 l v).latches = s.latches := by
  cases l <;> simp [State.write8]
@[simp] theorem State.write8_devices (s : State) (l : Loc Reg8) (v : Byte) : (s.write8 l v).devices = s.devices := by
  cases l <;> simp [State.write8]
@[simp] theorem State.write8_draws (s : State) (l : Loc Reg8) (v : Byte) : (s.write8 l v).draws = s.draws := by
  cases l <;> simp [State.write8]

theorem sameLines_write8 (s : State) (l : Loc Reg8) (v : Byte) : sameLines s (s.write8 l v) := by
  cases l with
  | reg r => exact sameLines_of_env rfl (sameLines_refl s)
  | mem seg off => exact sameLines_memWrite8 s seg off v

@[simp] theorem State.write16_seg (s : State) (l : Loc Reg16) (v : Word) : (s.write16 l v).seg = s.seg := by
  cases l <;> simp [State.write16]
@[simp] theorem State.write16_ip (s : State) (l : Loc Reg16) (v : Word) : (s.write16 l v).ip = s.ip := by
  cases l <;> simp [State.write16]
@[simp] theorem State.write16_flags (s : State) (l : Loc Reg16) (v : Word) : (s.write16 l v).flags = s.flags := by
  cases l <;> simp [State.write16]
@[simp] theorem State.write16_halted (s : State) (l : Loc Reg16) (v : Word) : (s.write16 l v).halted = s.halted := by
  cases l <;> simp [State.write16]
@[simp] theorem State.write16_inhibit (s : State) (l : Loc Reg16) (v : Word) : (s.write16 l v).inhibit = s.inhibit := by
  cases l <;> simp [State.write16]
@[simp] theorem State.write16_latches (s : State) (l : Loc Reg16) (v : Word) : (s.write16 l v).latches = s.latches := by
  cases l <;> simp [State.write16]
@[simp] theorem State.write16_devices (s : State) (l : Loc Reg16) (v : Word) : (s.write16 l v).devices = s.devices := by
  cases l <;> simp [State.write16]
@[simp] theorem State.write16_draws (s : State) (l : Loc Reg16) (v : Word) : (s.write16 l v).draws = s.draws := by
  cases l <;> simp [State.write16]

theorem sameLines_write16 (s : State) (l : Loc Reg16) (v : Word) : sameLines s (s.write16 l v) := by
  cases l with
  | reg r => exact sameLines_of_env rfl (sameLines_refl s)
  | mem seg off => exact sameLines_memWrite16 s seg off v

/-- Only the registers, the memory and the windows of the first state matter to `wrote8`. -/
theorem wrote8_of {s s' t : State} {l : Loc Reg8} {v : Byte} (hg : s'.gpr = s.gpr) (hm : s'.mem = s.mem)
    (hd : s'.devices = s.devices) (h : wrote8 s' t l v) : wrote8 s t l v := by
  cases l <;>
    simpa [wrote8, gprKept, memKept, storedByte, State.reg8, State.reg16, State.isDevice, hg, hm, hd] using h

theorem wrote16_of {s s' t : State} {l : Loc Reg16} {v : Word} (hg : s'.gpr = s.gpr) (hm : s'.mem = s.mem)
    (hd : s'.devices = s.devices) (h : wrote16 s' t l v) : wrote16 s t l v := by
  cases l <;>
    simpa [wrote16, memKept, storedWord, State.reg16, State.isDevice, hg, hm, hd] using h

/-- Only the registers, SS, the memory and the windows of the first state matter to `pushed`. -/
theorem pushed_of {s s' t : State} {v : Word} (hg : s'.gpr = s.gpr) (hs : s'.seg = s.seg) (hm : s'.mem = s.mem)
    (hd : s'.devices = s.devices) (h : pushed s' t v) : pushed s t v := by
  simpa [pushed, storedWord, State.isDevice, hg, hs, hm, hd] using h

end Sys2Proof.Machine
end

