-- ==== Sys2Proof/Laws/Operands.lean ====
section
/-! SUPPORT. What each operation on operands can do: the shapes of reading an operand, computing, and writing the flags
and the destination. -/

namespace Sys2Proof.Machine

/-! ### sameRest -/

theorem sameRest_refl (s : State) : sameRest s s := ⟨rfl, rfl, rfl, rfl, rfl, rfl, sameLines_refl s⟩

theorem sameRest_trans {s t u : State} (h : sameRest s t) (k : sameRest t u) : sameRest s u := by
  obtain ⟨h1, h2, h3, h4, h5, h6, h7⟩ := h
  obtain ⟨k1, k2, k3, k4, k5, k6, k7⟩ := k
  exact ⟨k1.trans h1, k2.trans h2, k3.trans h3, k4.trans h4, k5.trans h5, k6.trans h6, sameLines_trans h7 k7⟩

theorem Quiet.sameRest {s t : State} (h : Quiet s t) : sameRest s t :=
  ⟨h.1.2.1, h.1.2.2.1, h.2.1.1, h.1.2.2.2.2, h.2.1.2.1, h.2.1.2.2.2.2, h.2.2⟩

theorem sameRest_setGpr (s : State) (g : Gpr) : sameRest s (s.setGpr g) := ⟨rfl, rfl, rfl, rfl, rfl, rfl, sameLines_refl s⟩

theorem sameRest_setFlags (s : State) (f : Flags) : sameRest s (s.setFlags f) :=
  ⟨rfl, rfl, rfl, rfl, rfl, rfl, sameLines_refl s⟩

theorem sameRest_setReg16 (s : State) (r : Reg16) (v : Word) : sameRest s (s.setReg16 r v) := sameRest_setGpr s _

theorem sameRest_setReg8 (s : State) (r : Reg8) (v : Byte) : sameRest s (s.setReg8 r v) := sameRest_setGpr s _

theorem sameRest_write8 (s : State) (l : Loc Reg8) (v : Byte) : sameRest s (s.write8 l v) :=
  ⟨by simp, by simp, by simp, by simp, by simp, by simp, sameLines_write8 s l v⟩

theorem sameRest_write16 (s : State) (l : Loc Reg16) (v : Word) : sameRest s (s.write16 l v) :=
  ⟨by simp, by simp, by simp, by simp, by simp, by simp, sameLines_write16 s l v⟩

theorem sameRest_memWrite8 (s : State) (seg off : Word) (v : Byte) : sameRest s (s.memWrite8 seg off v) :=
  sameRest_write8 s (.mem seg off) v

theorem sameRest_memWrite16 (s : State) (seg off v : Word) : sameRest s (s.memWrite16 seg off v) :=
  sameRest_write16 s (.mem seg off) v

theorem sameRest_push16 (s : State) (v : Word) : sameRest s (s.push16 v) :=
  ⟨by simp, by simp, by simp, by simp, by simp, by simp, sameLines_push16 s v⟩

theorem sameRest_pop16 (s : State) : sameRest s s.pop16.2 :=
  ⟨by simp, by simp, by simp, by simp, by simp, by simp, sameLines_pop16 s⟩

/-! ### Reads, then a write -/

/-- A destination written after reads. -/
theorem Quiet.wrote8 {s r : State} (h : Quiet s r) (l : Loc Reg8) (v : Byte) : wrote8 s (r.write8 l v) l v :=
  wrote8_of h.1.1 h.2.1.2.2.1 h.2.1.2.2.2.2 (wrote8_write8 r l v)

theorem Quiet.wrote16 {s r : State} (h : Quiet s r) (l : Loc Reg16) (v : Word) : wrote16 s (r.write16 l v) l v :=
  wrote16_of h.1.1 h.2.1.2.2.1 h.2.1.2.2.2.2 (wrote16_write16 r l v)

/-- The flags and a destination written after reads. -/
theorem Quiet.put8 {s r : State} (h : Quiet s r) (l : Loc Reg8) (x : Byte × Flags) :
    Machine.wrote8 s (r.put8 l x) l x.1 ∧ (r.put8 l x).flags = x.2 ∧ Machine.sameRest s (r.put8 l x) :=
  ⟨wrote8_of (s' := r.setFlags x.2) h.1.1 h.2.1.2.2.1 h.2.1.2.2.2.2 (wrote8_write8 _ l x.1), by simp [State.put8],
    sameRest_trans h.sameRest (sameRest_trans (sameRest_setFlags r x.2) (sameRest_write8 _ l x.1))⟩

theorem Quiet.put16 {s r : State} (h : Quiet s r) (l : Loc Reg16) (x : Word × Flags) :
    Machine.wrote16 s (r.put16 l x) l x.1 ∧ (r.put16 l x).flags = x.2 ∧ Machine.sameRest s (r.put16 l x) :=
  ⟨wrote16_of (s' := r.setFlags x.2) h.1.1 h.2.1.2.2.1 h.2.1.2.2.2.2 (wrote16_write16 _ l x.1), by simp [State.put16],
    sameRest_trans h.sameRest (sameRest_trans (sameRest_setFlags r x.2) (sameRest_write16 _ l x.1))⟩

/-- Only the flags written after reads. -/
theorem Quiet.setFlags {s r : State} (h : Quiet s r) (f : Flags) :
    wroteNothing s (r.setFlags f) ∧ (r.setFlags f).flags = f ∧ Machine.sameRest s (r.setFlags f) :=
  ⟨⟨h.1.1, fun x => by simp [h.2.1.2.2.1]⟩, rfl, sameRest_trans h.sameRest (sameRest_setFlags r f)⟩

/-- Reads write nothing. -/
theorem Quiet.wroteNothing {s r : State} (h : Quiet s r) : Machine.wroteNothing s r :=
  ⟨h.1.1, fun x => by rw [h.2.1.2.2.1]⟩

/-! ### The two-operand and one-operand shapes -/

/-- A two-operand operation writes its result to the destination, its flags, and nothing else. -/
theorem State.binary_spec (s : State) (op : BinaryOp) (f : AluForm) :
    match aluOperands s f with
    | .byte dst a b =>
      wrote8 s (s.binary op f) dst (op 8 a b s.flags).1 ∧ (s.binary op f).flags = (op 8 a b s.flags).2
        ∧ sameRest s (s.binary op f)
    | .word dst a b =>
      wrote16 s (s.binary op f) dst (op 16 a b s.flags).1 ∧ (s.binary op f).flags = (op 16 a b s.flags).2
        ∧ sameRest s (s.binary op f) := by
  cases f
  case ebGb e g => exact (Quiet.read8 s (s.loc e)).put8 _ _
  case evGv e g => exact (Quiet.read16 s (s.loc e)).put16 _ _
  case gbEb g e => exact (Quiet.read8 s (s.loc e)).put8 _ _
  case gvEv g e => exact (Quiet.read16 s (s.loc e)).put16 _ _
  case alIb imm => exact (Quiet.refl s).put8 _ _
  case axIw imm => exact (Quiet.refl s).put16 _ _
  case ebIb o e imm => exact (Quiet.read8 s (s.loc e)).put8 _ _
  case evIw e imm => exact (Quiet.read16 s (s.loc e)).put16 _ _
  case evIs e imm => exact (Quiet.read16 s (s.loc e)).put16 _ _

/-- A comparison writes the flags and nothing else. -/
theorem State.compare_spec (s : State) (op : BinaryOp) (f : AluForm) :
    match aluOperands s f with
    | .byte _ a b =>
      wroteNothing s (s.compare op f) ∧ (s.compare op f).flags = (op 8 a b s.flags).2 ∧ sameRest s (s.compare op f)
    | .word _ a b =>
      wroteNothing s (s.compare op f) ∧ (s.compare op f).flags = (op 16 a b s.flags).2
        ∧ sameRest s (s.compare op f) := by
  cases f
  case ebGb e g => exact (Quiet.read8 s (s.loc e)).setFlags _
  case evGv e g => exact (Quiet.read16 s (s.loc e)).setFlags _
  case gbEb g e => exact (Quiet.read8 s (s.loc e)).setFlags _
  case gvEv g e => exact (Quiet.read16 s (s.loc e)).setFlags _
  case alIb imm => exact (Quiet.refl s).setFlags _
  case axIw imm => exact (Quiet.refl s).setFlags _
  case ebIb o e imm => exact (Quiet.read8 s (s.loc e)).setFlags _
  case evIw e imm => exact (Quiet.read16 s (s.loc e)).setFlags _
  case evIs e imm => exact (Quiet.read16 s (s.loc e)).setFlags _

/-- TEST writes the flags and nothing else. -/
theorem State.testForm_spec (s : State) (op : BinaryOp) (f : TestForm) :
    match testOperands s f with
    | .byte _ a b =>
      wroteNothing s (s.testForm op f) ∧ (s.testForm op f).flags = (op 8 a b s.flags).2 ∧ sameRest s (s.testForm op f)
    | .word _ a b =>
      wroteNothing s (s.testForm op f) ∧ (s.testForm op f).flags = (op 16 a b s.flags).2
        ∧ sameRest s (s.testForm op f) := by
  cases f
  case ebGb e g => exact (Quiet.read8 s (s.loc e)).setFlags _
  case evGv e g => exact (Quiet.read16 s (s.loc e)).setFlags _
  case alIb imm => exact (Quiet.refl s).setFlags _
  case axIw imm => exact (Quiet.refl s).setFlags _
  case ebIb e imm => exact (Quiet.read8 s (s.loc e)).setFlags _
  case evIw e imm => exact (Quiet.read16 s (s.loc e)).setFlags _

/-- A one-operand operation writes its result to the operand, its flags, and nothing else. -/
theorem State.unary_spec (s : State) (op : UnaryOp) (f : RmForm) :
    match rmOperand s f with
    | .byte dst a =>
      wrote8 s (s.unary op f) dst (op 8 a s.flags).1 ∧ (s.unary op f).flags = (op 8 a s.flags).2
        ∧ sameRest s (s.unary op f)
    | .word dst a =>
      wrote16 s (s.unary op f) dst (op 16 a s.flags).1 ∧ (s.unary op f).flags = (op 16 a s.flags).2
        ∧ sameRest s (s.unary op f) := by
  cases f
  case eb e => exact (Quiet.read8 s (s.loc e)).put8 _ _
  case ev e => exact (Quiet.read16 s (s.loc e)).put16 _ _

/-- INC and DEC write their result to the operand, their flags, and nothing else. -/
theorem State.incForm_spec (s : State) (op : UnaryOp) (f : IncForm) :
    match incOperand s f with
    | .byte dst a =>
      wrote8 s (s.incForm op f) dst (op 8 a s.flags).1 ∧ (s.incForm op f).flags = (op 8 a s.flags).2
        ∧ sameRest s (s.incForm op f)
    | .word dst a =>
      wrote16 s (s.incForm op f) dst (op 16 a s.flags).1 ∧ (s.incForm op f).flags = (op 16 a s.flags).2
        ∧ sameRest s (s.incForm op f) := by
  cases f
  case reg r => exact (Quiet.refl s).put16 _ _
  case eb e => exact (Quiet.read8 s (s.loc e)).put8 _ _
  case ev e => exact (Quiet.read16 s (s.loc e)).put16 _ _

/-! ### A draw at the end -/

theorem sameRest_draw (s : State) : sameRest s s.draw.2 := (Quiet.draw s).sameRest

/-- A draw changes no register and no byte of memory. -/
theorem wrote8_draw {s t : State} {l : Loc Reg8} {v : Byte} (h : wrote8 s t l v) : wrote8 s t.draw.2 l v := by
  cases l <;> exact h

theorem wrote16_draw {s t : State} {l : Loc Reg16} {v : Word} (h : wrote16 s t l v) : wrote16 s t.draw.2 l v := by
  cases l <;> exact h

end Sys2Proof.Machine
end

