-- ==== Sys2Proof/Laws/Plain.lean ====
section
/-! SUPPORT. Words of plain memory (no device windows): reading, writing, pushing and popping them, and when two of them
share no byte. -/

namespace Sys2Proof.Machine

theorem State.memRead16_of_plain {s : State} (h : s.devices = []) (seg off : Word) :
    s.memRead16 seg off = (s.plainWord seg off, s) :=
  State.memRead16_plain (State.isDevice_nil h _) (State.isDevice_nil h _)

theorem State.memRead8_of_plain {s : State} (h : s.devices = []) (seg off : Word) :
    s.memRead8 seg off = (Memory.read s.mem (byteAddr seg off 0), s) :=
  State.memRead8_plain (State.isDevice_nil h _)

theorem State.pop16_plain {s : State} (h : s.devices = []) :
    s.pop16 = (s.plainWord s.seg.ss s.gpr.sp, s.setReg16 .sp (s.gpr.sp + 2)) := by
  rw [State.pop16, State.memRead16_of_plain h]

theorem State.readPointer_plain {s : State} (h : s.devices = []) (m : Mem) : s.readPointer m = (s.plainPointer m, s) := by
  unfold State.readPointer
  rw [State.memRead16_of_plain h]
  simp only []
  rw [State.memRead16_of_plain h]
  rfl

/-- Only memory decides a word of plain memory. -/
theorem State.plainWord_congr {s t : State} (h : t.mem = s.mem) (seg off : Word) :
    t.plainWord seg off = s.plainWord seg off := by
  unfold State.plainWord
  rw [h]

@[simp] theorem State.plainWord_jumpTo (s : State) (v seg off : Word) :
    (s.jumpTo v).plainWord seg off = s.plainWord seg off := rfl

@[simp] theorem State.plainWord_farJumpTo (s : State) (c v seg off : Word) :
    (s.farJumpTo c v).plainWord seg off = s.plainWord seg off := rfl

@[simp] theorem State.plainWord_setGpr (s : State) (g : Gpr) (seg off : Word) :
    (s.setGpr g).plainWord seg off = s.plainWord seg off := rfl

@[simp] theorem State.plainWord_setReg16 (s : State) (r : Reg16) (v seg off : Word) :
    (s.setReg16 r v).plainWord seg off = s.plainWord seg off := rfl

@[simp] theorem State.plainWord_setFlags (s : State) (f : Flags) (seg off : Word) :
    (s.setFlags f).plainWord seg off = s.plainWord seg off := rfl

@[simp] theorem State.plainWord_draw (s : State) (seg off : Word) :
    s.draw.2.plainWord seg off = s.plainWord seg off := rfl

/-! ### Which bytes are which -/

/-- The place of a byte in its segment, before the segment's base is added. -/
def byteIndex (off : Word) (k : Nat) : Nat :=
  if off.toNat + k < 65536 then off.toNat + k
  else
    match Config.segWrap with
    | .wrap => (off.toNat + k) % 65536
    | .linear => off.toNat + k

theorem byteAddr_eq_byteIndex (seg off : Word) (k : Nat) :
    byteAddr seg off k = (seg.toNat * 16 + byteIndex off k) % memorySize := by
  unfold byteAddr byteIndex
  split
  · rfl
  · cases Config.segWrap <;> rfl

/-- Two bytes of a segment, each one of the two of a word, are at one address only if their places are the same. -/
theorem byteAddr_inj {seg off off' : Word} {k k' : Nat} (hk : k < 2) (hk' : k' < 2)
    (h : byteAddr seg off k = byteAddr seg off' k') : byteIndex off k = byteIndex off' k' := by
  rw [byteAddr_eq_byteIndex, byteAddr_eq_byteIndex] at h
  have h1 := off.isLt
  have h2 := off'.isLt
  have b : ∀ o : Word, ∀ j, j < 2 → byteIndex o j ≤ 65536 := by
    intro o j hj
    have := o.isLt
    unfold byteIndex
    split
    · omega
    · cases Config.segWrap <;> simp only <;> omega
  have b1 := b off k hk
  have b2 := b off' k' hk'
  unfold memorySize at h
  omega

/-- The two bytes of a word are two bytes. -/
theorem byteAddr_zero_ne_one (seg off : Word) : byteAddr seg off 0 ≠ byteAddr seg off 1 := by
  intro h
  have h := byteAddr_inj (by decide) (by decide) h
  have := off.isLt
  unfold byteIndex at h
  split at h <;> split at h <;> first | omega | (cases hw : Config.segWrap <;> rw [hw] at h <;> simp only at h <;> omega)

/-- Words whose offsets differ by 2 or more share no byte. -/
theorem wordBytes_disjoint {seg off off' : Word} (h : 2 ≤ (off - off').toNat ∧ 2 ≤ (off' - off).toNat) {x : Nat}
    (hx : x ∈ wordBytes seg off) : x ∉ wordBytes seg off' := by
  have h1 := off.isLt
  have h2 := off'.isLt
  have e1 : (off - off').toNat = (65536 - off'.toNat + off.toNat) % 65536 := by simp [BitVec.toNat_sub]
  have e2 : (off' - off).toNat = (65536 - off.toNat + off'.toNat) % 65536 := by simp [BitVec.toNat_sub]
  have key : ∀ k k', k < 2 → k' < 2 → byteAddr seg off k ≠ byteAddr seg off' k' := by
    intro k k' hk hk' he
    have he := byteAddr_inj hk hk' he
    unfold byteIndex at he
    cases hw : Config.segWrap <;> rw [hw] at he <;> simp only at he <;> split at he <;> split at he <;> omega
  simp only [wordBytes, List.mem_cons, List.not_mem_nil, or_false] at hx ⊢
  rcases hx with rfl | rfl
  · exact fun e => e.elim (key 0 0 (by decide) (by decide)) (key 0 1 (by decide) (by decide))
  · exact fun e => e.elim (key 1 0 (by decide) (by decide)) (key 1 1 (by decide) (by decide))

/-! ### A word written -/

theorem wordAt_loByte_hiByte {m : Memory} {a b : Nat} {v : Word} (ha : Memory.read m a = loByte v)
    (hb : Memory.read m b = hiByte v) : wordAt m a b = v := by
  unfold wordAt
  rw [ha, hb, wordOf_lo_hi]

theorem storedWord_plainWord {s t : State} {seg off v : Word} (h : s.devices = []) (w : storedWord s t seg off v) :
    t.plainWord seg off = v := by
  apply wordAt_loByte_hiByte
  · rw [w, State.isDevice_nil h, if_neg (by decide), if_neg (byteAddr_zero_ne_one seg off), if_pos rfl]
  · rw [w, State.isDevice_nil h, if_neg (by decide), if_pos rfl]

theorem storedWord_read {s t : State} {seg off v : Word} (w : storedWord s t seg off v) {x : Nat}
    (hx : x ∉ wordBytes seg off) : Memory.read t.mem x = Memory.read s.mem x := by
  simp only [wordBytes, List.mem_cons, List.not_mem_nil, or_false, not_or] at hx
  rw [w]
  split
  · rfl
  · rw [if_neg hx.2, if_neg hx.1]

/-- A word whose bytes read as before is as before. -/
theorem State.plainWord_of_read {s t : State} {seg off : Word}
    (h : ∀ x ∈ wordBytes seg off, Memory.read t.mem x = Memory.read s.mem x) :
    t.plainWord seg off = s.plainWord seg off := by
  unfold State.plainWord wordAt
  rw [h _ (by simp [wordBytes]), h _ (by simp [wordBytes])]

theorem storedWord_plainWord_other {s t : State} {seg off off' v : Word} (w : storedWord s t seg off v)
    (h : 2 ≤ (off' - off).toNat ∧ 2 ≤ (off - off').toNat) : t.plainWord seg off' = s.plainWord seg off' :=
  State.plainWord_of_read fun _ hx => storedWord_read w (wordBytes_disjoint h hx)

/-! ### The stack -/

/-- The word just pushed. -/
theorem State.push16_plainWord {s : State} (h : s.devices = []) (v : Word) :
    (s.push16 v).plainWord s.seg.ss (s.gpr.sp - 2) = v :=
  storedWord_plainWord h (pushed_push16 s v).2

/-- A word of the stack segment, 2 or more away from the word just pushed. -/
theorem State.push16_plainWord_other {s : State} (v off : Word)
    (h : 2 ≤ (off - (s.gpr.sp - 2)).toNat ∧ 2 ≤ (s.gpr.sp - 2 - off).toNat) :
    (s.push16 v).plainWord s.seg.ss off = s.plainWord s.seg.ss off :=
  storedWord_plainWord_other (pushed_push16 s v).2 h

theorem State.push16_read {s : State} (v : Word) {x : Nat} (hx : x ∉ wordBytes s.seg.ss (s.gpr.sp - 2)) :
    Memory.read (s.push16 v).mem x = Memory.read s.mem x :=
  storedWord_read (pushed_push16 s v).2 hx

/-- In plain memory a push draws nothing and is no event. -/
@[simp] theorem State.push16_env {s : State} (h : s.devices = []) (v : Word) : (s.push16 v).env = s.env := by
  unfold State.push16 State.memWrite16 State.writeByte
  simp [State.isDevice, h]

/-- What a run of pushes leaves: SP lower by 2 for each, the words at rising distance below the old SP, every other byte
of memory as before. -/
theorem State.foldl_push16 (vs : List Word) (s : State) (h : s.devices = []) (hl : vs.length < 32767) :
    (vs.foldl State.push16 s).gpr = { s.gpr with sp := s.gpr.sp - BitVec.ofNat 16 (2 * vs.length) }
      ∧ sameRest s (vs.foldl State.push16 s) ∧ (vs.foldl State.push16 s).flags = s.flags
      ∧ (∀ x, (∀ k, k < vs.length → x ∉ wordBytes s.seg.ss (s.gpr.sp - BitVec.ofNat 16 (2 * (k + 1)))) →
          Memory.read (vs.foldl State.push16 s).mem x = Memory.read s.mem x)
      ∧ ∀ k (hk : k < vs.length),
          (vs.foldl State.push16 s).plainWord s.seg.ss (s.gpr.sp - BitVec.ofNat 16 (2 * (k + 1))) = vs[k] := by
  induction vs generalizing s with
  | nil => exact ⟨by simp, sameRest_refl s, rfl, fun _ _ => rfl, fun k hk => by simp at hk⟩
  | cons v vs ih =>
    have hl' : vs.length < 32767 := by simp only [List.length_cons] at hl; omega
    obtain ⟨i1, i2, i3, i4, i5⟩ := ih (s.push16 v) (by simp [h]) hl'
    simp only [State.push16_gpr, State.push16_seg] at i1 i4 i5
    have e : ∀ k, s.gpr.sp - 2 - BitVec.ofNat 16 (2 * k) = s.gpr.sp - BitVec.ofNat 16 (2 * (k + 1)) := by
      intro k
      bv_omega
    simp only [e] at i1 i4 i5
    refine ⟨i1, sameRest_trans (sameRest_push16 s v) i2, by rw [List.foldl_cons, i3, State.push16_flags], ?_, ?_⟩
    · intro x hx
      rw [List.foldl_cons, i4 x fun k hk => hx (k + 1) (by simpa using hk)]
      exact State.push16_read v (hx 0 (by simp))
    · intro k hk
      cases k with
      | zero =>
        rw [List.foldl_cons, List.getElem_cons_zero]
        refine (State.plainWord_of_read (s := s.push16 v) fun x hx => i4 x fun k hk => ?_).trans
          (State.push16_plainWord h v)
        refine wordBytes_disjoint ?_ hx
        constructor <;> bv_omega
      | succ k =>
        rw [List.foldl_cons, List.getElem_cons_succ]
        exact i5 k (by simpa using hk)

/-- The pointer of interrupt `n` in segment 0 (60_exceptions.md R347). -/
theorem byteAddr_vector (n : Byte) (d k : Nat) (hd : d < 4) (hk : k < 2) :
    byteAddr 0 (vectorOffset n + BitVec.ofNat 16 d) k = n.toNat * 4 + d + k := by
  have hn := n.isLt
  have e : (vectorOffset n + BitVec.ofNat 16 d).toNat = n.toNat * 4 + d := by
    unfold vectorOffset zext16
    rw [BitVec.toNat_add, BitVec.toNat_mul, BitVec.toNat_setWidth, BitVec.toNat_ofNat,
      show (4 : Word).toNat = 4 from rfl]
    omega
  have z : (0 : Word).toNat = 0 := rfl
  unfold byteAddr memorySize
  rw [e, if_pos (by omega), z]
  omega

/-! ### ENTER -/

/-- What ENTER's loop leaves: BP and SP lower by 2 for each turn, and the words above the old BP below the old SP, where
none of them is one of the bytes it writes. -/
theorem State.copyFrames_spec (n : Nat) (s : State) (h : s.devices = []) (hn : n < 32767) :
    (s.copyFrames n).gpr
        = { s.gpr with bp := s.gpr.bp - BitVec.ofNat 16 (2 * n), sp := s.gpr.sp - BitVec.ofNat 16 (2 * n) }
      ∧ sameRest s (s.copyFrames n) ∧ (s.copyFrames n).flags = s.flags
      ∧ (∀ x, (∀ k, k < n → x ∉ wordBytes s.seg.ss (s.gpr.sp - BitVec.ofNat 16 (2 * (k + 1)))) →
          Memory.read (s.copyFrames n).mem x = Memory.read s.mem x)
      ∧ ((∀ j k, j < n → k < n → ∀ x ∈ wordBytes s.seg.ss (s.gpr.bp - BitVec.ofNat 16 (2 * (j + 1))),
            x ∉ wordBytes s.seg.ss (s.gpr.sp - BitVec.ofNat 16 (2 * (k + 1)))) →
          ∀ j, j < n → (s.copyFrames n).plainWord s.seg.ss (s.gpr.sp - BitVec.ofNat 16 (2 * (j + 1)))
            = s.plainWord s.seg.ss (s.gpr.bp - BitVec.ofNat 16 (2 * (j + 1)))) := by
  induction n generalizing s with
  | zero => exact ⟨by simp [State.copyFrames], sameRest_refl s, rfl, fun _ _ => rfl, fun _ j hj => by omega⟩
  | succ n ih =>
    have e : ∀ (p : Word) k, p - 2 - BitVec.ofNat 16 (2 * k) = p - BitVec.ofNat 16 (2 * (k + 1)) := by
      intro p k
      bv_omega
    have hc : s.copyFrames (n + 1)
        = ((s.setReg16 .bp (s.gpr.bp - 2)).push16 (s.plainWord s.seg.ss (s.gpr.bp - 2))).copyFrames n := by
      rw [State.copyFrames, State.memRead16_of_plain (by simpa using h)]
      rfl
    rw [hc]
    generalize hv : s.plainWord s.seg.ss (s.gpr.bp - 2) = v
    obtain ⟨i1, i2, i3, i4, i5⟩ := ih ((s.setReg16 .bp (s.gpr.bp - 2)).push16 v) (by simp [h]) (by omega)
    simp only [State.push16_gpr, State.push16_seg, State.setReg16_gpr, State.setReg16_seg, Gpr.set, e] at i1 i4 i5
    have hr : ∀ x, x ∉ wordBytes s.seg.ss (s.gpr.sp - 2) →
        Memory.read ((s.setReg16 .bp (s.gpr.bp - 2)).push16 v).mem x = Memory.read s.mem x :=
      fun x hx => State.push16_read (s := s.setReg16 .bp (s.gpr.bp - 2)) v hx
    refine ⟨i1, sameRest_trans (sameRest_setReg16 s .bp _) (sameRest_trans (sameRest_push16 _ v) i2), by rw [i3]; simp, ?_, ?_⟩
    · intro x hx
      rw [i4 x fun k hk => hx (k + 1) (by omega)]
      exact hr x (hx 0 (by omega))
    · intro hd j hj
      cases j with
      | zero =>
        refine (State.plainWord_of_read fun x hx => i4 x fun k hk => ?_).trans
          ((State.push16_plainWord (s := s.setReg16 .bp (s.gpr.bp - 2)) (by simpa using h) v).trans hv.symm)
        refine wordBytes_disjoint ?_ hx
        have q : (s.setReg16 .bp (s.gpr.bp - 2)).gpr.sp = s.gpr.sp := rfl
        constructor <;> bv_omega
      | succ j =>
        rw [i5 (fun j k hj hk => hd (j + 1) (k + 1) (by omega) (by omega)) j (by omega)]
        refine State.plainWord_of_read fun x hx => hr x ?_
        exact hd (j + 1) 0 (by omega) (by omega) x hx

end Sys2Proof.Machine
end

