-- ==== Sys2Proof/Laws/Interrupts.lean ====
section
/-! SUPPORT. What taking an interrupt does where memory is plain, and the return from one. -/

namespace Sys2Proof.Machine

/-- A push and an update of the flags change places. -/
theorem State.push16_setFlags (s : State) (f : Flags) (v : Word) :
    (s.setFlags f).push16 v = (s.push16 v).setFlags f := by
  have w : ∀ (t : State) a b, (t.setFlags f).writeByte a b = (t.writeByte a b).setFlags f := by
    intro t a b
    unfold State.writeByte
    rw [show (t.setFlags f).isDevice a = t.isDevice a from rfl]
    split <;> rfl
  unfold State.push16 State.memWrite16
  rw [show (s.setFlags f).setReg16 .sp ((s.setFlags f).gpr.sp - 2)
      = (s.setReg16 .sp (s.gpr.sp - 2)).setFlags f from rfl, w, w]
  rfl

/-- The pointer of interrupt `n` is the words at physical addresses n × 4 and n × 4 + 2 (60_exceptions.md R347). -/
theorem wordBytes_vector (n : Byte) :
    wordBytes 0 (vectorOffset n) = [n.toNat * 4, n.toNat * 4 + 1]
      ∧ wordBytes 0 (vectorOffset n + 2) = [n.toNat * 4 + 2, n.toNat * 4 + 3] := by
  have e0 : vectorOffset n = vectorOffset n + BitVec.ofNat 16 0 := by simp
  have e2 : vectorOffset n + 2 = vectorOffset n + BitVec.ofNat 16 2 := rfl
  unfold wordBytes
  constructor
  · rw [e0, byteAddr_vector n 0 0 (by decide) (by decide), byteAddr_vector n 0 1 (by decide) (by decide)]
    simp
  · rw [e2, byteAddr_vector n 2 0 (by decide) (by decide), byteAddr_vector n 2 1 (by decide) (by decide)]

theorem State.plainWord_vector (s : State) (n : Byte) :
    s.plainWord 0 (vectorOffset n) = wordAt s.mem (n.toNat * 4) (n.toNat * 4 + 1)
      ∧ s.plainWord 0 (vectorOffset n + 2) = wordAt s.mem (n.toNat * 4 + 2) (n.toNat * 4 + 3) := by
  have h1 := (wordBytes_vector n).1
  have h2 := (wordBytes_vector n).2
  simp only [wordBytes, List.cons.injEq, and_true] at h1 h2
  unfold State.plainWord
  rw [h1.1, h1.2, h2.1, h2.2]
  exact ⟨rfl, rfl⟩

/-- The interrupt sequence where memory is plain: the three pushes, then CS from the pointer as it stands after the
second push and IP from the pointer as it stands after the third. -/
theorem State.interrupt_plain (s : State) (n : Byte) (ret : Word) (h : s.devices = []) :
    s.interrupt n ret =
      { ((s.draw.2.push16 (s.flags.toWord s.draw.1)).push16 s.seg.cs).push16 ret with
        seg := { s.seg with
          cs := ((s.draw.2.push16 (s.flags.toWord s.draw.1)).push16 s.seg.cs).plainWord 0 (vectorOffset n + 2) }
        ip := (((s.draw.2.push16 (s.flags.toWord s.draw.1)).push16 s.seg.cs).push16 ret).plainWord 0 (vectorOffset n)
        flags := { s.flags with ifl := false, tf := false }
        halted := false, inhibit := .none, stored := [] } := by
  have p : s.pushFlags = s.draw.2.push16 (s.flags.toWord s.draw.1) := rfl
  unfold State.interrupt
  simp only [p]
  generalize hq : s.draw.2.push16 (s.flags.toWord s.draw.1) = q
  have hqd : q.devices = [] := by rw [← hq]; simp [h]
  have hqf : q.flags = s.flags := by rw [← hq]; simp
  have hqs : q.seg = s.seg := by rw [← hq]; simp
  rw [State.push16_setFlags]
  generalize hm : q.push16 s.seg.cs = m
  have hmd : m.devices = [] := by rw [← hm]; simp [hqd]
  have hms : m.seg = s.seg := by rw [← hm]; simp [hqs]
  rw [State.memRead16_of_plain (s := m.setFlags q.flags.maskInterrupts) hmd 0 (vectorOffset n + 2)]
  simp only []
  rw [State.push16_setFlags]
  generalize ht : m.push16 ret = t
  have htd : t.devices = [] := by rw [← ht]; simp [hmd]
  have hts : t.seg = s.seg := by rw [← ht]; simp [hms]
  rw [State.memRead16_of_plain (s := t.setFlags q.flags.maskInterrupts) htd 0 (vectorOffset n), hqf]
  unfold State.farJumpTo State.setCs State.setSegs State.setIp State.flushQueue State.setHalted State.setInhibit
    Flags.maskInterrupts
  simp [hts, State.setFlags, State.plainWord]

/-- The frame of an interrupt: three words on the stack. -/
theorem State.frameBytes_eq (s : State) :
    s.frameBytes = wordBytes s.seg.ss (s.gpr.sp - 2) ++ wordBytes s.seg.ss (s.gpr.sp - 4)
      ++ wordBytes s.seg.ss (s.gpr.sp - 6) := rfl

/-- Three pushes after a draw: the frame, and everything else as before. -/
theorem State.push16_frame (s : State) (a b c : Word) (h : s.devices = []) :
    ∃ t, t = ((s.draw.2.push16 a).push16 b).push16 c
      ∧ t.gpr = { s.gpr with sp := s.gpr.sp - 6 } ∧ sameRest s t ∧ t.env = s.env
      ∧ t.plainWord s.seg.ss (s.gpr.sp - 2) = a ∧ t.plainWord s.seg.ss (s.gpr.sp - 4) = b
      ∧ t.plainWord s.seg.ss (s.gpr.sp - 6) = c
      ∧ (∀ x, x ∉ s.frameBytes → Memory.read t.mem x = Memory.read s.mem x)
      ∧ ∀ x, x ∉ s.frameBytes → Memory.read ((s.draw.2.push16 a).push16 b).mem x = Memory.read s.mem x := by
  obtain ⟨i1, i2, i3, i4, i5⟩ := State.foldl_push16 [a, b, c] s.draw.2 (by simp [h]) (by simp)
  obtain ⟨j1, j2, j3, j4, j5⟩ := State.foldl_push16 [a, b] s.draw.2 (by simp [h]) (by simp)
  have e : ∀ x, x ∉ s.frameBytes → ∀ k, k < 3 →
      x ∉ wordBytes s.seg.ss (s.gpr.sp - BitVec.ofNat 16 (2 * (k + 1))) := by
    intro x hx k hk
    rw [State.frameBytes_eq] at hx
    simp only [List.mem_append, not_or] at hx
    interval_cases k
    · exact hx.1.1
    · exact hx.1.2
    · exact hx.2
  have k0 := i5 0 (by simp)
  have k1 := i5 1 (by simp)
  have k2 := i5 2 (by simp)
  simp only [List.foldl_cons, List.foldl_nil] at i1 i2 i4 j4 k0 k1 k2
  refine ⟨_, rfl, i1, sameRest_trans (sameRest_draw s) i2, ?_, k0, k1, k2, fun x hx => i4 x (e x hx),
    fun x hx => j4 x fun k hk => e x hx k (Nat.lt_of_lt_of_le hk (by simp))⟩
  rw [State.push16_env, State.push16_env, State.push16_env] <;> simp [h]

/-- Where the frame does not overlap the pointer, CS and IP are the pointer's words as memory held them before. -/
theorem State.interrupt_vector (s : State) (n : Byte) (ret : Word) (h : s.devices = [])
    (hd : ∀ a ∈ s.frameBytes, a ∉ vectorBytes n) :
    (s.interrupt n ret).seg.cs = wordAt s.mem (n.toNat * 4 + 2) (n.toNat * 4 + 3)
      ∧ (s.interrupt n ret).ip = wordAt s.mem (n.toNat * 4) (n.toNat * 4 + 1) := by
  obtain ⟨t, ht, -, -, -, -, -, -, k6, k7⟩ := State.push16_frame s (s.flags.toWord s.draw.1) s.seg.cs ret h
  have hv := wordBytes_vector n
  rw [State.interrupt_plain s n ret h, ← ht, ← (State.plainWord_vector s n).1, ← (State.plainWord_vector s n).2]
  constructor
  · refine State.plainWord_of_read fun x hx => k7 x fun hf => hd x hf ?_
    rw [hv.2] at hx
    simp only [vectorBytes, List.mem_cons, List.not_mem_nil, or_false] at hx ⊢
    omega
  · refine State.plainWord_of_read fun x hx => k6 x fun hf => hd x hf ?_
    rw [hv.1] at hx
    simp only [vectorBytes, List.mem_cons, List.not_mem_nil, or_false] at hx ⊢
    omega

/-- IRET where memory is plain. -/
theorem State.interruptReturn_plain (s : State) (h : s.devices = []) :
    s.interruptReturn =
      { s with
        gpr := { s.gpr with sp := s.gpr.sp + 6 }
        seg := { s.seg with cs := s.plainWord s.seg.ss (s.gpr.sp + 2) }
        ip := s.plainWord s.seg.ss s.gpr.sp
        flags := Flags.ofWord (s.plainWord s.seg.ss (s.gpr.sp + 4))
        stored := [] } := by
  unfold State.interruptReturn
  rw [State.pop16_plain h]
  simp only []
  rw [State.pop16_plain (s := s.setReg16 .sp (s.gpr.sp + 2)) h]
  simp only []
  rw [State.pop16_plain
    (s := (s.setReg16 .sp (s.gpr.sp + 2)).setReg16 .sp ((s.setReg16 .sp (s.gpr.sp + 2)).gpr.sp + 2)) h]
  simp [State.setReg16, State.setGpr, State.setFlags, State.farJumpTo, State.setCs, State.setSegs, State.setIp,
    State.flushQueue, State.plainWord, Gpr.set, BitVec.add_assoc]

end Sys2Proof.Machine
end

