-- ==== Sys2Proof/Laws/Cycle.lean ====
section
/-! SUPPORT. What the fetch checks, and how an instruction ends. -/

namespace Sys2Proof.Machine

theorem State.isDevice_iff_inWindow (s : State) (a : Nat) : s.isDevice a = true ↔ s.inWindow a := by
  simp [State.isDevice, State.inWindow, Window.contains, List.any_eq_true]

theorem State.staleFetch_eq_false_iff (s : State) (n : Nat) : s.staleFetch n = false ↔ s.freshFetch n := by
  simp [State.staleFetch, State.freshFetch]

@[simp] theorem State.endInstruction_false (s : State) :
    s.endInstruction false = (s.setLatches Latches.idle).advanceEnv := rfl

/-- An instruction that is not stepped, or whose single-step interrupt is held off or comes too late for an active RESET
line, ends with the environment's input. -/
theorem State.endInstruction_quiet {s : State} {b : Bool}
    (h : b = false ∨ s.inhibit = .all ∨ ((s.setLatches Latches.idle).advanceEnv).env.resetLine = true) :
    s.endInstruction b = (s.setLatches Latches.idle).advanceEnv := by
  rcases h with h | h | h <;> simp [State.endInstruction, h]

/-- A stepped instruction ends with the environment's input and the single-step interrupt. -/
theorem State.endInstruction_stepped {s : State} (hi : s.inhibit ≠ .all)
    (hr : ((s.setLatches Latches.idle).advanceEnv).env.resetLine = false) :
    s.endInstruction true = (s.setLatches Latches.idle).advanceEnv.singleStep := by
  simp [State.endInstruction, hi, hr]

end Sys2Proof.Machine
end

