-- ==== Sys2Proof/Laws/Flags.lean ====
section
/-! SUPPORT. The flag computations against their definitions in Safety.lean: results, overflow, parity, the FLAGS word. -/

namespace Sys2Proof.Machine

theorem parityEven_eq {w : Nat} (r : BitVec w) : parityEven r = evenParity r := by
  unfold parityEven evenParity
  simp only [List.range, List.range.loop, List.countP, List.countP.go]
  cases r.getLsbD 0 <;> cases r.getLsbD 1 <;> cases r.getLsbD 2 <;> cases r.getLsbD 3 <;> cases r.getLsbD 4 <;>
    cases r.getLsbD 5 <;> cases r.getLsbD 6 <;> cases r.getLsbD 7 <;> rfl

theorem resultFlags_setSzp {w : Nat} (f : Flags) (r : BitVec w) : resultFlags (f.setSzp r) r :=
  ⟨rfl, rfl, parityEven_eq r⟩

/-- SF, ZF and PF are all that `resultFlags` reads. -/
theorem resultFlags_of {w : Nat} {g : Flags} {r : BitVec w} (hz : g.zf = decide (r = 0)) (hs : g.sf = r.msb)
    (hp : g.pf = parityEven r) : resultFlags g r :=
  ⟨hz, hs, hp.trans (parityEven_eq r)⟩

/-- Each flag of the FLAGS word weighs what its place says. -/
theorem Flags.toNat_image (f : Flags) :
    f.image.toNat = f.cf.toNat + f.pf.toNat * 0x4 + f.af.toNat * 0x10 + f.zf.toNat * 0x40 + f.sf.toNat * 0x80
      + f.tf.toNat * 0x100 + f.ifl.toNat * 0x200 + f.df.toNat * 0x400 + f.ofl.toNat * 0x800 := by
  have := f.cf.toNat_le
  have := f.pf.toNat_le
  have := f.af.toNat_le
  have := f.zf.toNat_le
  have := f.sf.toNat_le
  have := f.tf.toNat_le
  have := f.ifl.toNat_le
  have := f.df.toNat_le
  have := f.ofl.toNat_le
  unfold Flags.image
  rw [BitVec.toNat_ofNat, Nat.mod_eq_of_lt (by omega)]

theorem addResult_eq {w : Nat} (a b : BitVec w) (c : Bool) : addResult a b c = sumOf a b c := rfl

theorem subResult_eq {w : Nat} (a b : BitVec w) (c : Bool) : subResult a b c = differenceOf a b c := by
  unfold subResult differenceOf
  have h : ∀ x y : Int, BitVec.ofInt w (x - y) = BitVec.ofInt w x - BitVec.ofInt w y := by
    intro x y
    rw [Int.sub_eq_add_neg, BitVec.ofInt_add, BitVec.ofInt_neg, BitVec.sub_eq_add_neg]
  rw [h, h]
  simp

/-- The two readings of OF after an addition (00_scope.md R13), for a byte. -/
theorem overflow_add8 (a b : BitVec 8) (c : Bool) :
    signedOutside 8 (a.toInt + b.toInt + carryInt c) = ((a.msb == b.msb) && ((sumOf a b c).msb != a.msb)) := by
  have h1 : ∀ x y : BitVec 8, ∀ c : Bool, (sumOf x y c).toNat = (x.toNat + y.toNat + c.toNat) % 256 := by
    intro x y c; simp [sumOf]
  unfold signedOutside carryInt
  have ha := a.isLt
  have hb := b.isLt
  rw [Bool.eq_iff_iff]
  simp only [BitVec.toInt_eq_toNat_cond, BitVec.msb_eq_decide, h1]
  cases c <;> simp <;> omega

theorem overflow_add16 (a b : BitVec 16) (c : Bool) :
    signedOutside 16 (a.toInt + b.toInt + carryInt c) = ((a.msb == b.msb) && ((sumOf a b c).msb != a.msb)) := by
  have h1 : ∀ x y : BitVec 16, ∀ c : Bool, (sumOf x y c).toNat = (x.toNat + y.toNat + c.toNat) % 65536 := by
    intro x y c; simp [sumOf]
  unfold signedOutside carryInt
  have ha := a.isLt
  have hb := b.isLt
  rw [Bool.eq_iff_iff]
  simp only [BitVec.toInt_eq_toNat_cond, BitVec.msb_eq_decide, h1]
  cases c <;> simp <;> omega

theorem toNat_differenceOf {w : Nat} (a b : BitVec w) (c : Bool) :
    ((differenceOf a b c).toNat : Int) = ((a.toNat : Int) - b.toNat - c.toNat) % 2 ^ w := by
  unfold differenceOf
  rw [BitVec.toNat_ofInt]
  have : (0 : Int) ≤ ((a.toNat : Int) - b.toNat - c.toNat) % 2 ^ w := Int.emod_nonneg _ (by positivity)
  simp [this]

theorem overflow_sub8 (a b : BitVec 8) (c : Bool) :
    signedOutside 8 (a.toInt - b.toInt - carryInt c) = ((a.msb != b.msb) && ((differenceOf a b c).msb != a.msb)) := by
  have h1 := toNat_differenceOf a b c
  unfold signedOutside carryInt
  have ha := a.isLt
  have hb := b.isLt
  rw [Bool.eq_iff_iff]
  simp only [BitVec.toInt_eq_toNat_cond, BitVec.msb_eq_decide]
  cases c <;> simp at h1 ⊢ <;> omega

theorem overflow_sub16 (a b : BitVec 16) (c : Bool) :
    signedOutside 16 (a.toInt - b.toInt - carryInt c) = ((a.msb != b.msb) && ((differenceOf a b c).msb != a.msb)) := by
  have h1 := toNat_differenceOf a b c
  unfold signedOutside carryInt
  have ha := a.isLt
  have hb := b.isLt
  rw [Bool.eq_iff_iff]
  simp only [BitVec.toInt_eq_toNat_cond, BitVec.msb_eq_decide]
  cases c <;> simp at h1 ⊢ <;> omega

end Sys2Proof.Machine
end

