-- ==== Sys2Proof/Tests/Slice0.lean ====
section
/-! SUPPORT. Tests of one decoding or one step each, with values from spec/95_test_vectors.md (the row or example is in the
name or the comment) or by hand from the rules; and the witnesses of the statements' hypotheses. -/

namespace Sys2Proof.Tests

open Sys2Proof Sys2Proof.Machine

/-! ### Helpers -/

/-- The start state of spec/95_test_vectors.md. -/
def startState : State :=
  { State.reset with
    seg := { es := 0x3000, cs := 0x1000, ss := 0x4000, ds := 0x2000 }
    ip := 0x0100, gpr := { Gpr.reset with sp := 0x0100 } }

/-- With answers for the environment to give. -/
def answering : State := startState.setEnv { Env.reset with answers := [0x5A5A, 0x5A5A] }

def nextOf : Host.Outcome State Fault Refusal → Option State
  | .next t => some t
  | .fault _ => none
  | .refused _ => none

/-- One step with the given bytes at CS:IP. -/
def after (s : State) (code : List Byte) : Option State := nextOf (step (s.withFetchBytes code))

/-! ### Well-formedness: an ill-formed term for each check -/

theorem test_wf_base_bp : (Instr.lea .ax (.base .bp)).wellFormed = false := by decide

theorem test_wf_alu :
    ([.ebGb (.mem (.base .bp)) .al, .evGv (.mem (.base .bp)) .ax, .gbEb .al (.mem (.base .bp)),
      .gvEv .ax (.mem (.base .bp)), .ebIb false (.mem (.base .bp)) 0, .evIw (.mem (.base .bp)) 0,
      .evIs (.mem (.base .bp)) 0] : List AluForm).all (fun f => !(Instr.add f).wellFormed) = true := by decide

theorem test_wf_test :
    ([.ebGb (.mem (.base .bp)) .al, .evGv (.mem (.base .bp)) .ax, .ebIb (.mem (.base .bp)) 0,
      .evIw (.mem (.base .bp)) 0] : List TestForm).all (fun f => !(Instr.test f).wellFormed) = true := by decide

theorem test_wf_mov :
    ([.ebGb (.mem (.base .bp)) .al, .evGv (.mem (.base .bp)) .ax, .gbEb .al (.mem (.base .bp)),
      .gvEv .ax (.mem (.base .bp)), .ebIb (.mem (.base .bp)) 0, .evIw (.mem (.base .bp)) 0] : List MovForm).all
      (fun f => !(Instr.mov f).wellFormed) = true := by decide

theorem test_wf_unary :
    (Instr.neg (.eb (.mem (.base .bp)))).wellFormed = false ∧ (Instr.not (.ev (.mem (.base .bp)))).wellFormed = false
      ∧ (Instr.inc (.eb (.mem (.base .bp)))).wellFormed = false
      ∧ (Instr.dec (.ev (.mem (.base .bp)))).wellFormed = false
      ∧ (Instr.shl (.ev (.mem (.base .bp))) .cl).wellFormed = false := by decide

theorem test_wf_xchg_ax : (Instr.xchg (.axReg .ax)).wellFormed = false
    ∧ (Instr.xchg (.evGv (.mem (.base .bp)) .ax)).wellFormed = false := by decide

theorem test_wf_unused_opcode : (Instr.unused (.opcode 0x90)).wellFormed = false := by decide

/-- A used member of each group that 30_encoding.md R124 names is no unused encoding. -/
theorem test_wf_unused_group :
    [(0xC0#8, 0xC0#8), (0xF6, 0xC0), (0xFE, 0xC8), (0xFF, 0xF0), (0xFF, 0x18), (0x8F, 0xC0), (0x8C, 0xD8), (0x8E,
      0xD8),
      (0x8D, 0x00), (0x62, 0xBF)].all (fun p => !(Instr.unused (.group p.1 p.2)).wellFormed) = true := by decide

/-! ### Decoding: words written out from 30_encoding.md and the `Encoding` lines of the instructions' rules -/

/-- The bytes are exactly one item, this one. -/
def readsAs (bs : List Byte) (i : Instr) : Bool :=
  match decodeItem bs with
  | .ok (j, rest) => decide (j = i) && rest.isEmpty
  | .error _ => false

theorem test_decode_transfer1 :
    [([0x88, 0xC3], Instr.mov (.ebGb (.reg .bl) .al)), ([0x89, 0x47, 0x02], .mov (.evGv (.mem (.disp8 .bx 0x02)) .ax)),
     ([0x8A, 0x26, 0x00, 0x02], .mov (.gbEb .ah (.mem (.direct 0x0200)))), ([0x8B, 0x12], .mov (.gvEv .dx (.mem (.base
       .bpSi)))),
     ([0xA0, 0x34, 0x12], .mov (.alOb 0x1234)), ([0xA1, 0x34, 0x12], .mov (.axOv 0x1234)),
     ([0xA2, 0x34, 0x12], .mov (.obAl 0x1234)), ([0xA3, 0x34, 0x12], .mov (.ovAx 0x1234)),
     ([0xB4, 0x12], .mov (.gbIb .ah 0x12)), ([0xBE, 0x00, 0x80], .mov (.gvIw .si 0x8000)),
     ([0xC6, 0x07, 0x7F], .mov (.ebIb (.mem (.base .bx)) 0x7F)),
     ([0xC7, 0x44, 0x02, 0x34, 0x12], .mov (.evIw (.mem (.disp8 .si 0x02)) 0x1234))].all
      (fun p => readsAs p.1 p.2) = true := by decide

theorem test_decode_transfer2 :
    [([0x8C, 0xC8], Instr.movFromSeg (.reg .ax) .cs), ([0x8E, 0xD0], .movToSeg .ss (.reg .ax)), ([0x57], .pushReg .di),
     ([0xFF, 0x76, 0x02], .pushRm (.mem (.disp8 .bp 0x02))), ([0x0E], .pushSeg .cs), ([0x68, 0x34, 0x12], .pushImm
       (.iw 0x1234)),
     ([0x6A, 0x80], .pushImm (.is 0x80)), ([0x5C], .popReg .sp), ([0x8F, 0x06, 0x00, 0x02], .popRm (.mem (.direct
       0x0200))),
     ([0x17], .popSeg .ss), ([0x60], .pusha), ([0x61], .popa), ([0x9C], .pushf), ([0x9D], .popf)].all
      (fun p => readsAs p.1 p.2) = true := by decide

theorem test_decode_transfer3 :
    [([0x86, 0xE0], Instr.xchg (.ebGb (.reg .al) .ah)), ([0x87, 0xD9], .xchg (.evGv (.reg .cx) .bx)), ([0x97], .xchg
      (.axReg .di)),
     ([0xD7], .xlat), ([0xE4, 0x42], .inAcc (.byteImm 0x42)), ([0xE5, 0x42], .inAcc (.wordImm 0x42)), ([0xEC], .inAcc
       .byteDx),
     ([0xED], .inAcc .wordDx), ([0xE6, 0x42], .outAcc (.byteImm 0x42)), ([0xE7, 0x42], .outAcc (.wordImm 0x42)),
     ([0xEE], .outAcc .byteDx), ([0xEF], .outAcc .wordDx), ([0x8D, 0x41, 0xFF], .lea .ax (.disp8 .bxDi 0xFF)),
     ([0xC5, 0x36, 0x00, 0x02], .lds .si (.direct 0x0200)), ([0xC4, 0x3F], .les .di (.base .bx)), ([0x9F], .lahf),
     ([0x9E], .sahf)].all (fun p => readsAs p.1 p.2) = true := by decide

theorem test_decode_arithmetic1 :
    [([0x00, 0xD8], Instr.add (.ebGb (.reg .al) .bl)), ([0x11, 0x1C], .adc (.evGv (.mem (.base .si)) .bx)),
     ([0x2A, 0x01], .sub (.gbEb .al (.mem (.base .bxDi)))), ([0x1B, 0x43, 0x80], .sbb (.gvEv .ax (.mem (.disp8 .bpDi
       0x80)))),
     ([0x3C, 0x7F], .cmp (.alIb 0x7F)), ([0x05, 0xFF, 0x7F], .add (.axIw 0x7FFF)), ([0x80, 0xD0, 0x01], .adc (.ebIb
       false (.reg .al) 0x01)),
     ([0x82, 0xE8, 0x05], .sub (.ebIb true (.reg .al) 0x05)), ([0x81, 0x1D, 0x34, 0x12], .sbb (.evIw (.mem (.base
       .di)) 0x1234)),
     ([0x83, 0xF8, 0xFF], .cmp (.evIs (.reg .ax) 0xFF)), ([0x47], .inc (.reg .di)), ([0xFE, 0xC4], .inc (.eb (.reg
       .ah))),
     ([0xFF, 0x0F], .dec (.ev (.mem (.base .bx)))), ([0x48], .dec (.reg .ax))].all (fun p => readsAs p.1 p.2) = true
       := by decide

theorem test_decode_arithmetic2 :
    [([0xF6, 0xDB], Instr.neg (.eb (.reg .bl))), ([0xF7, 0xE1], .mul (.ev (.reg .cx))), ([0xF6, 0xEB], .imul (.eb
      (.reg .bl))),
     ([0x69, 0xC3, 0xE8, 0x03], .imulImm .ax (.reg .bx) (.iw 0x03E8)), ([0x6B, 0xC3, 0xFE], .imulImm .ax (.reg .bx)
       (.is 0xFE)),
     ([0xF7, 0xF3], .div (.ev (.reg .bx))), ([0xF6, 0xFB], .idiv (.eb (.reg .bl))), ([0x37], .aaa), ([0x3F], .aas),
     ([0xD4, 0x0A], .aam), ([0xD5, 0x0A], .aad), ([0x27], .daa), ([0x2F], .das), ([0x98], .cbw), ([0x99], .cwd)].all
      (fun p => readsAs p.1 p.2) = true := by decide

theorem test_decode_logic :
    [([0xF7, 0xD1], Instr.not (.ev (.reg .cx))), ([0x22, 0xC3], .and (.gbEb .al (.reg .bl))), ([0x0D, 0x01, 0x80], .or
      (.axIw 0x8001)),
     ([0x83, 0xF0, 0x80], .xor (.evIs (.reg .ax) 0x80)), ([0x84, 0xD8], .test (.ebGb (.reg .al) .bl)),
     ([0x85, 0xD9], .test (.evGv (.reg .cx) .bx)), ([0xA8, 0x01], .test (.alIb 0x01)), ([0xA9, 0x01, 0x02], .test
       (.axIw 0x0201)),
     ([0xF6, 0xC3, 0x01], .test (.ebIb (.reg .bl) 0x01)), ([0xF7, 0xC3, 0x01, 0x02], .test (.evIw (.reg .bx)
       0x0201))].all
      (fun p => readsAs p.1 p.2) = true := by decide

theorem test_decode_shifts :
    [([0xD0, 0xE0], Instr.shl (.eb (.reg .al)) .one), ([0xD3, 0xEB], .shr (.ev (.reg .bx)) .cl), ([0xC1, 0xF8, 0x0F],
      .sar (.ev (.reg .ax)) (.imm 0x0F)),
     ([0xD1, 0xC0], .rol (.ev (.reg .ax)) .one), ([0xD2, 0xC8], .ror (.eb (.reg .al)) .cl), ([0xC0, 0xD0, 0x03], .rcl
       (.eb (.reg .al)) (.imm 0x03)),
     ([0xD0, 0xD8], .rcr (.eb (.reg .al)) .one)].all (fun p => readsAs p.1 p.2) = true := by decide

theorem test_decode_strings :
    [([0x6C], Instr.insb), ([0x6D], .insw), ([0x6E], .outsb), ([0x6F], .outsw), ([0xA4], .movsb), ([0xA5], .movsw),
      ([0xA6], .cmpsb),
     ([0xA7], .cmpsw), ([0xAA], .stosb), ([0xAB], .stosw), ([0xAC], .lodsb), ([0xAD], .lodsw), ([0xAE], .scasb),
       ([0xAF], .scasw),
     ([0xF3], .rep), ([0xF2], .repne)].all (fun p => readsAs p.1 p.2) = true := by decide

theorem test_decode_transfers_of_control :
    [([0xE8, 0x03, 0x00], Instr.callNear 0x0003), ([0xFF, 0xD3], .callInd (.reg .bx)), ([0x9A, 0x78, 0x56, 0x34,
      0x12], .callFar 0x5678 0x1234),
     ([0xFF, 0x1F], .callFarInd (.base .bx)), ([0xC3], .retNear none), ([0xC2, 0x04, 0x00], .retNear (some 4)),
       ([0xCB], .retFar none),
     ([0xCA, 0x04, 0x00], .retFar (some 4)), ([0xEB, 0x80], .jmpShort 0x80), ([0xE9, 0x00, 0x80], .jmpNear 0x8000),
       ([0xFF, 0xE6], .jmpInd (.reg .si)),
     ([0xEA, 0x78, 0x56, 0x34, 0x12], .jmpFar 0x5678 0x1234), ([0xFF, 0x2F], .jmpFarInd (.base .bx))].all
      (fun p => readsAs p.1 p.2) = true := by decide

/-- JC's word is JB's and JNC's is JAE's (30_encoding.md R114). -/
theorem test_decode_conditions :
    [([0x70, 0x10], Instr.jo 0x10), ([0x71, 0x10], .jno 0x10), ([0x72, 0x10], .jb 0x10), ([0x73, 0x10], .jae 0x10),
      ([0x74, 0x10], .je 0x10),
     ([0x75, 0x10], .jne 0x10), ([0x76, 0x10], .jbe 0x10), ([0x77, 0x10], .ja 0x10), ([0x78, 0x10], .js 0x10), ([0x79,
       0x10], .jns 0x10),
     ([0x7A, 0x10], .jp 0x10), ([0x7B, 0x10], .jnp 0x10), ([0x7C, 0x10], .jl 0x10), ([0x7D, 0x10], .jge 0x10), ([0x7E,
       0x10], .jle 0x10),
     ([0x7F, 0x10], .jg 0x10), (encode (.jc 0x10), .jb 0x10), (encode (.jnc 0x10), .jae 0x10)].all
      (fun p => readsAs p.1 p.2) = true := by decide

theorem test_decode_loops_and_interrupts :
    [([0xE3, 0xFE], Instr.jcxz 0xFE), ([0xE2, 0xFE], .loop 0xFE), ([0xE1, 0xFE], .loope 0xFE), ([0xE0, 0xFE], .loopne
      0xFE),
     ([0xCD, 0x21], .int 0x21), ([0xCC], .int3), ([0xCE], .into), ([0xCF], .iret), ([0x62, 0x1E, 0x00, 0x02], .bound
       .bx (.direct 0x0200)),
     ([0xC8, 0x02, 0x00, 0x03], .enter 0x0002 0x03), ([0xC9], .leave)].all (fun p => readsAs p.1 p.2) = true := by
       decide

theorem test_decode_processor :
    [([0xF8], Instr.clc), ([0xF9], .stc), ([0xF5], .cmc), ([0xFC], .cld), ([0xFD], .std), ([0xFA], .cli), ([0xFB],
      .sti), ([0xF4], .hlt),
     ([0x9B], .wait), ([0xDB, 0x27], .esc 0b011100 (.mem (.base .bx))), ([0x90], .nop), ([0xF0], .lock), ([0x26],
       .segEs), ([0x2E], .segCs),
     ([0x36], .segSs), ([0x3E], .segDs), ([0xF1], .unused (.opcode 0xF1)), ([0xFE, 0xD0], .unused (.group 0xFE
       0xD0))].all
      (fun p => readsAs p.1 p.2) = true := by decide

/-- A table word numbers the opcode byte in its high half (30_encoding.md R126): 8BC3H is MOV AX, BX. -/
theorem test_decode_table_word :
    decodeTableWord 16 0x8BC3 = some (.mov (.gvEv .ax (.reg .bx))) ∧ decodeTableWord 8 0x90 = some .nop := by decide

theorem test_decode_refusals :
    (match decodeInstruction [0x26, 0x2E, 0x90] with | .ok _ => none | .error e => some e) = some .repeatedPrefix
      ∧ (match decodeInstruction [0xF3, 0x90] with | .ok _ => none | .error e => some e) = some .repeatBeforeNonString
      ∧ (match decodeInstruction [0xD5, 0x0B] with | .ok _ => none | .error e => some e) = some .adjustSecondByte := by
  decide

/-! ### One step of each instruction: the named row of spec/95_test_vectors.md, part 2 -/

theorem test_mov_a4 :
    (after ((startState.setReg16 .ax 0xBEEF).setReg16 .bx 0x0010) [0x89, 0x47, 0x02]).map
      (fun t => (Memory.read t.mem (phys 0x2000 0x0012), Memory.read t.mem (phys 0x2000 0x0013), t.ip)) = some (0xEF,
        0xBE, 0x0103) := by decide

theorem test_mov_from_seg_a18 :
    (after startState [0x8C, 0xC8]).map (fun t => (t.gpr.ax, t.ip)) = some (0x1000, 0x0102) := by decide

theorem test_mov_to_seg_a17 :
    (after (startState.setReg16 .ax 0x5000) [0x8E, 0xD8]).map
      (fun t => (t.seg.ds, t.ip)) = some (0x5000, 0x0102) := by decide

theorem test_push_reg_a21 :
    (after (startState.setReg16 .ax 0xBEEF) [0x50]).map
      (fun t => (t.gpr.sp, t.plainWord 0x4000 0x00FE, t.ip)) = some (0x00FE, 0xBEEF, 0x0101) := by decide

theorem test_push_rm_a23 :
    (after (startState.memWrite16 0x2000 0x0200 0x1234) [0xFF, 0x36, 0x00, 0x02]).map
      (fun t => (t.gpr.sp, t.plainWord 0x4000 0x00FE, t.ip)) = some (0x00FE, 0x1234, 0x0104) := by decide

theorem test_push_seg_a28 :
    (after startState [0x0E]).map
      (fun t => (t.gpr.sp, t.plainWord 0x4000 0x00FE, t.ip)) = some (0x00FE, 0x1000, 0x0101) := by decide

theorem test_push_imm_a25 :
    (after startState [0x68, 0x34, 0x12]).map
      (fun t => (t.gpr.sp, t.plainWord 0x4000 0x00FE, t.ip)) = some (0x00FE, 0x1234, 0x0103) := by decide

theorem test_pop_reg_a31 :
    (after ((startState.setReg16 .sp 0x00FE).memWrite16 0x4000 0x00FE 0xBEEF) [0x5B]).map
      (fun t => (t.gpr.bx, t.gpr.sp, t.ip)) = some (0xBEEF, 0x0100, 0x0101) := by decide

theorem test_pop_rm_a33 :
    (after ((startState.setReg16 .sp 0x00FE).memWrite16 0x4000 0x00FE 0xBEEF) [0x8F, 0x06, 0x00, 0x02]).map
      (fun t => (t.plainWord 0x2000 0x0200, t.gpr.sp, t.ip)) = some (0xBEEF, 0x0100, 0x0104) := by decide

theorem test_pop_seg_a34 :
    (after ((startState.setReg16 .sp 0x00FE).memWrite16 0x4000 0x00FE 0x6000) [0x1F]).map
      (fun t => (t.seg.ds, t.gpr.sp, t.ip)) = some (0x6000, 0x0100, 0x0101) := by decide

theorem test_pusha_a36 :
    (after (((((((startState.setReg16 .ax 0x1111).setReg16 .cx 0x2222).setReg16 .dx 0x3333).setReg16 .bx
        0x4444).setReg16 .bp 0x5555).setReg16 .si 0x6666).setReg16 .di 0x7777) [0x60]).map
      (fun t => [t.gpr.sp, t.plainWord 0x4000 0x00FE, t.plainWord 0x4000 0x00FC, t.plainWord 0x4000 0x00F8,
        t.plainWord 0x4000 0x00F6, t.plainWord 0x4000 0x00F0])
      = some [0x00F0, 0x1111, 0x2222, 0x4444, 0x0100, 0x7777] := by decide

theorem test_pushf_a38 :
    (after (startState.setFlags { Flags.clear with cf := true, zf := true, ifl := true, df := true }) [0x9C]).map
      (fun t => (t.gpr.sp, t.ip)) = some (0x00FE, 0x0101) := by decide

theorem test_popf_a42 :
    (after ((startState.setReg16 .sp 0x00FE).memWrite16 0x4000 0x00FE 0x0AD5) [0x9D]).map
      (fun t => (t.gpr.sp, t.flags)) = some (0x0100,
        { ofl := true, df := false, ifl := true, tf := false, sf := true, zf := true, af := true, pf := true,
          cf := true }) := by decide

theorem test_xchg_a43 :
    (after ((startState.setReg16 .bx 0x1111).setReg16 .cx 0x2222) [0x87, 0xD9]).map
      (fun t => (t.gpr.bx, t.gpr.cx, t.ip)) = some (0x2222, 0x1111, 0x0102) := by decide

theorem test_xlat_a48 :
    (after (((startState.setReg8 .al 0x05).setReg16 .bx 0x0200).memWrite8 0x2000 0x0205 0x33) [0xD7]).map
      (fun t => (t.reg8 .al, t.ip)) = some (0x33, 0x0101) := by decide

theorem test_in_acc_a62 :
    (after (answering.setReg16 .ax 0xFFFF) [0xE4, 0x42]).map
      (fun t => (t.gpr.ax, t.ip)) = some (0xFF5A, 0x0102) := by decide

theorem test_out_acc_a66 :
    (after (startState.setReg16 .ax 0x1234) [0xE6, 0x80]).map (fun t => t.env.events) = some [.outByte 0x0080 0x34] := by
  decide

theorem test_lea_a51 :
    (after ((startState.setReg16 .bx 0x1000).setReg16 .si 0x0020) [0x8D, 0x40, 0x04]).map
      (fun t => (t.gpr.ax, t.ip)) = some (0x1024, 0x0103) := by decide

theorem test_sahf_a60 :
    (after ((startState.setReg8 .ah 0xD7).setFlags { Flags.clear with ofl := true, df := true }) [0x9E]).map
      (fun t => (t.ip, [t.flags.sf, t.flags.zf, t.flags.af, t.flags.pf, t.flags.cf, t.flags.ofl, t.flags.df,
        t.flags.ifl])) = some (0x0101, [true, true, true, true, true, true, true, false]) := by decide

theorem test_add_b1 :
    (after ((startState.setReg8 .al 0x7F).setReg8 .bl 0x01) [0x00, 0xD8]).map
      (fun t => (t.reg8 .al, t.ip, [t.flags.ofl, t.flags.sf, t.flags.zf, t.flags.af, t.flags.pf, t.flags.cf])) = some
        (0x80, 0x0102, [true, true, false, true, false, false]) := by decide

theorem test_adc_b12 :
    (after (((startState.setReg8 .al 0xFF).setReg8 .bl 0x00).setFlags { Flags.clear with cf := true }) [0x10,
        0xD8]).map
      (fun t => (t.reg8 .al, t.ip, [t.flags.ofl, t.flags.sf, t.flags.zf, t.flags.af, t.flags.pf, t.flags.cf])) = some
        (0x00, 0x0102, [false, false, true, true, true, true]) := by decide

theorem test_sub_b15 :
    (after ((startState.setReg8 .al 0x00).setReg8 .bl 0x01) [0x28, 0xD8]).map
      (fun t => (t.reg8 .al, t.ip, [t.flags.ofl, t.flags.sf, t.flags.zf, t.flags.af, t.flags.pf, t.flags.cf])) = some
        (0xFF, 0x0102, [false, true, false, true, true, true]) := by decide

theorem test_sbb_b20 :
    (after (((startState.setReg8 .al 0x00).setReg8 .bl 0xFF).setFlags { Flags.clear with cf := true }) [0x18,
        0xD8]).map
      (fun t => (t.reg8 .al, t.ip, [t.flags.ofl, t.flags.sf, t.flags.zf, t.flags.af, t.flags.pf, t.flags.cf])) = some
        (0x00, 0x0102, [false, false, true, true, true, true]) := by decide

theorem test_cmp_b23 :
    (after ((startState.setReg8 .al 0x05).setReg8 .bl 0x07) [0x38, 0xD8]).map
      (fun t => (t.reg8 .al, t.ip, [t.flags.ofl, t.flags.sf, t.flags.zf, t.flags.af, t.flags.pf, t.flags.cf])) = some
        (0x05, 0x0102, [false, true, false, true, false, true]) := by decide

theorem test_inc_b28 :
    (after ((startState.setReg16 .ax 0x7FFF).setFlags { Flags.clear with cf := true }) [0x40]).map
      (fun t => (t.gpr.ax, t.ip, [t.flags.ofl, t.flags.sf, t.flags.zf, t.flags.af, t.flags.pf, t.flags.cf])) = some
        (0x8000, 0x0101, [true, true, false, true, true, true]) := by decide

theorem test_dec_b33 :
    (after ((startState.setReg16 .ax 0x8000).setFlags { Flags.clear with cf := true }) [0x48]).map
      (fun t => (t.gpr.ax, t.ip, [t.flags.ofl, t.flags.sf, t.flags.zf, t.flags.af, t.flags.pf, t.flags.cf])) = some
        (0x7FFF, 0x0101, [true, false, false, true, true, true]) := by decide

theorem test_neg_b37 :
    (after (startState.setReg8 .al 0x80) [0xF6, 0xD8]).map
      (fun t => (t.reg8 .al, t.ip, [t.flags.ofl, t.flags.sf, t.flags.zf, t.flags.af, t.flags.pf, t.flags.cf])) = some
        (0x80, 0x0102, [true, true, false, false, false, true]) := by decide

theorem test_mul_b52 :
    (after ((startState.setReg16 .ax 0xFFFF).setReg16 .bx 0xFFFF) [0xF7, 0xE3]).map
      (fun t => (t.gpr.dx, t.gpr.ax, t.ip, [t.flags.cf, t.flags.ofl])) = some (0xFFFE, 0x0001, 0x0102, [true, true])
        := by decide

theorem test_imul_b60 :
    (after ((startState.setReg16 .ax 0x8000).setReg16 .bx 0x8000) [0xF7, 0xEB]).map
      (fun t => (t.gpr.dx, t.gpr.ax, t.ip, [t.flags.cf, t.flags.ofl])) = some (0x4000, 0x0000, 0x0102, [true, true])
        := by decide

theorem test_imul_imm_b63 :
    (after (startState.setReg16 .bx 0x0003) [0x6B, 0xC3, 0xFE]).map
      (fun t => (t.gpr.ax, t.ip, [t.flags.cf, t.flags.ofl])) = some (0xFFFA, 0x0103, [false, false]) := by decide

theorem test_div_b70 :
    (after ((startState.setReg16 .ax 0x0064).setReg8 .bl 0x07) [0xF6, 0xF3]).map
      (fun t => (t.reg8 .al, t.reg8 .ah, t.ip)) = some (0x0E, 0x02, 0x0102) := by decide

theorem test_idiv_b75 :
    (after ((startState.setReg16 .ax 0xFFFB).setReg8 .bl 0x02) [0xF6, 0xFB]).map
      (fun t => (t.reg8 .al, t.reg8 .ah, t.ip)) = some (0xFE, 0xFF, 0x0102) := by decide

theorem test_aaa_b100 :
    (after (startState.setReg16 .ax 0x000F) [0x37]).map
      (fun t => (t.gpr.ax, t.ip, [t.flags.af, t.flags.cf])) = some (0x0105, 0x0101, [true, true]) := by decide

theorem test_aas_b105 :
    (after ((startState.setReg16 .ax 0x01FF).setFlags { Flags.clear with af := true }) [0x3F]).map
      (fun t => (t.gpr.ax, t.ip, [t.flags.af, t.flags.cf])) = some (0x0009, 0x0101, [true, true]) := by decide

theorem test_aam_b109 :
    (after (startState.setReg16 .ax 0xAA3F) [0xD4, 0x0A]).map
      (fun t => (t.gpr.ax, t.ip, [t.flags.sf, t.flags.zf, t.flags.pf])) = some (0x0603, 0x0102, [false, false, true])
        := by decide

theorem test_aad_b114 :
    (after (startState.setReg16 .ax 0x0603) [0xD5, 0x0A]).map
      (fun t => (t.gpr.ax, t.ip, [t.flags.sf, t.flags.zf, t.flags.pf])) = some (0x003F, 0x0102, [false, false, true])
        := by decide

theorem test_daa_b119 :
    (after (startState.setReg8 .al 0x9A) [0x27]).map
      (fun t => (t.reg8 .al, t.ip, [t.flags.sf, t.flags.zf, t.flags.af, t.flags.pf, t.flags.cf])) = some (0x00,
        0x0101, [false, true, true, true, true]) := by decide

theorem test_das_b126 :
    (after ((startState.setReg8 .al 0xFF).setFlags { Flags.clear with af := true, cf := true }) [0x2F]).map
      (fun t => (t.reg8 .al, t.ip, [t.flags.sf, t.flags.zf, t.flags.af, t.flags.pf, t.flags.cf])) = some (0x99,
        0x0101, [true, false, true, true, true]) := by decide

theorem test_cbw_b132 :
    (after (startState.setReg16 .ax 0x1280) [0x98]).map
      (fun t => (t.gpr.ax, t.ip)) = some (0xFF80, 0x0101) := by decide

theorem test_cwd_b134 :
    (after ((startState.setReg16 .ax 0x8000).setReg16 .dx 0x1234) [0x99]).map
      (fun t => (t.gpr.dx, t.ip)) = some (0xFFFF, 0x0101) := by decide

theorem test_not_l14 :
    (after ((startState.setReg8 .al 0x55).setFlags { Flags.clear with cf := true, zf := true }) [0xF6, 0xD0]).map
      (fun t => (t.reg8 .al, t.ip, [t.flags.ofl, t.flags.sf, t.flags.zf, t.flags.af, t.flags.pf, t.flags.cf])) = some
        (0xAA, 0x0102, [false, false, true, false, false, true]) := by decide

theorem test_and_l1 :
    (after (((startState.setReg8 .al 0xF0).setReg8 .bl 0x3C).setFlags { Flags.clear with cf := true, ofl := true })
        [0x20, 0xD8]).map
      (fun t => (t.reg8 .al, t.ip, [t.flags.ofl, t.flags.sf, t.flags.zf, t.flags.pf, t.flags.cf])) = some (0x30,
        0x0102, [false, false, false, true, false]) := by decide

theorem test_or_l4 :
    (after (((startState.setReg8 .al 0xF0).setReg8 .bl 0x0F).setFlags { Flags.clear with cf := true, ofl := true })
        [0x08, 0xD8]).map
      (fun t => (t.reg8 .al, t.ip, [t.flags.ofl, t.flags.sf, t.flags.zf, t.flags.pf, t.flags.cf])) = some (0xFF,
        0x0102, [false, true, false, true, false]) := by decide

theorem test_xor_l7 :
    (after ((startState.setReg8 .al 0xAA).setReg8 .bl 0xFF) [0x30, 0xD8]).map
      (fun t => (t.reg8 .al, t.ip, [t.flags.ofl, t.flags.sf, t.flags.zf, t.flags.pf, t.flags.cf])) = some (0x55,
        0x0102, [false, false, false, true, false]) := by decide

theorem test_test_l10 :
    (after (((startState.setReg8 .al 0x81).setReg8 .bl 0x80).setFlags { Flags.clear with cf := true }) [0x84,
        0xD8]).map
      (fun t => (t.ip, [t.flags.ofl, t.flags.sf, t.flags.zf, t.flags.pf, t.flags.cf])) = some (0x0102, [false, true,
        false, false, false]) := by decide

theorem test_shl_l20 :
    (after (startState.setReg8 .al 0x81) [0xD0, 0xE0]).map
      (fun t => (t.reg8 .al, t.ip, [t.flags.ofl, t.flags.sf, t.flags.zf, t.flags.pf, t.flags.cf])) = some (0x02,
        0x0102, [true, false, false, false, true]) := by decide

theorem test_shr_l32 :
    (after (startState.setReg8 .al 0x81) [0xD0, 0xE8]).map
      (fun t => (t.reg8 .al, t.ip, [t.flags.ofl, t.flags.sf, t.flags.zf, t.flags.pf, t.flags.cf])) = some (0x40,
        0x0102, [true, false, false, false, true]) := by decide

theorem test_sar_l38 :
    (after (startState.setReg8 .al 0xFB) [0xD0, 0xF8]).map
      (fun t => (t.reg8 .al, t.ip, [t.flags.ofl, t.flags.sf, t.flags.zf, t.flags.pf, t.flags.cf])) = some (0xFD,
        0x0102, [false, true, false, false, true]) := by decide

theorem test_rol_l50 :
    (after ((startState.setReg8 .al 0x81).setFlags { Flags.clear with zf := true, sf := true }) [0xD0, 0xC0]).map
      (fun t => (t.reg8 .al, t.ip)) = some (0x03, 0x0102) := by decide

theorem test_ror_l55 :
    (after (startState.setReg8 .al 0x01) [0xD0, 0xC8]).map
      (fun t => (t.reg8 .al, t.ip)) = some (0x80, 0x0102) := by decide

theorem test_rcl_l59 :
    (after ((startState.setReg8 .al 0x80).setFlags { Flags.clear with cf := false }) [0xD0, 0xD0]).map
      (fun t => (t.reg8 .al, t.ip)) = some (0x00, 0x0102) := by decide

theorem test_rcr_l65 :
    (after ((startState.setReg8 .al 0x01).setFlags { Flags.clear with cf := false }) [0xD0, 0xD8]).map
      (fun t => (t.reg8 .al, t.ip)) = some (0x00, 0x0102) := by decide

/-! Counts other than 1: the examples of 42_logic_shift.md R221 to R226, and a count of 0 (R220 (c)) -/

theorem test_shl_by_4 :
    (after (startState.setReg16 .ax 0x0001) [0xC1, 0xE0, 0x04]).map (fun t => (t.gpr.ax, t.flags.cf, t.ip))
      = some (0x0010, false, 0x0103) := by decide

theorem test_shr_by_15 :
    (after ((startState.setReg16 .ax 0x8000).setReg8 .cl 0x0F) [0xD3, 0xE8]).map (fun t => (t.gpr.ax, t.flags.cf))
      = some (0x0001, false) := by decide

theorem test_sar_by_15 :
    (after (startState.setReg16 .ax 0x8000) [0xC1, 0xF8, 0x0F]).map (fun t => (t.gpr.ax, t.flags.cf))
      = some (0xFFFF, false) := by decide

theorem test_rol_by_4 :
    (after (startState.setReg16 .ax 0x1234) [0xC1, 0xC0, 0x04]).map (fun t => (t.gpr.ax, t.flags.cf))
      = some (0x2341, true) := by decide

theorem test_ror_by_4 :
    (after ((startState.setReg16 .ax 0x1234).setReg8 .cl 0x04) [0xD3, 0xC8]).map (fun t => (t.gpr.ax, t.flags.cf))
      = some (0x4123, false) := by decide

theorem test_rcl_by_2 :
    (after ((startState.setReg8 .al 0x01).setFlags { Flags.clear with cf := true }) [0xC0, 0xD0, 0x02]).map
      (fun t => (t.reg8 .al, t.flags.cf)) = some (0x06, false) := by decide

theorem test_rcr_by_0 :
    (after ((startState.setReg8 .al 0x81).setFlags { Flags.clear with cf := true, zf := true }) [0xC0, 0xD8, 0x00]).map
      (fun t => (t.reg8 .al, t.flags.cf, t.flags.zf)) = some (0x81, true, true) := by decide

theorem test_insb_t24 :
    (after ((answering.setReg16 .dx 0x03F8).setReg16 .di 0x0020) [0x6C]).map
      (fun t => (Memory.read t.mem (phys 0x3000 0x0020), t.gpr.di, t.ip)) = some (0x5A, 0x0021, 0x0101) := by decide

theorem test_outsb_t26 :
    (after (((startState.setReg16 .dx 0x03F8).setReg16 .si 0x0010).memWrite8 0x2000 0x0010 0x41) [0x6E]).map
      (fun t => (t.gpr.si, t.env.events)) = some (0x0011, [.outByte 0x03F8 0x41]) := by decide

theorem test_movsb_t1 :
    (after (((startState.setReg16 .si 0x0010).setReg16 .di 0x0020).memWrite8 0x2000 0x0010 0xAB) [0xA4]).map
      (fun t => (Memory.read t.mem (phys 0x3000 0x0020), t.gpr.si, t.gpr.di, t.ip)) = some (0xAB, 0x0011, 0x0021,
        0x0101) := by decide

theorem test_movsw_t2 :
    (after ((((startState.setReg16 .si 0x0010).setReg16 .di 0x0020).memWrite16 0x2000 0x0010 0xABCD).setFlags {
        Flags.clear with df := true }) [0xA5]).map
      (fun t => (t.plainWord 0x3000 0x0020, t.gpr.si, t.gpr.di, t.ip)) = some (0xABCD, 0x000E, 0x001E, 0x0101) := by
        decide

theorem test_cmpsb_t7 :
    (after ((((startState.setReg16 .si 0x0010).setReg16 .di 0x0020).memWrite8 0x2000 0x0010 0x05).memWrite8 0x3000
        0x0020 0x07) [0xA6]).map
      (fun t => (t.gpr.si, t.gpr.di, t.ip, [t.flags.ofl, t.flags.sf, t.flags.zf, t.flags.af, t.flags.pf,
        t.flags.cf])) = some (0x0011, 0x0021, 0x0101, [false, true, false, true, false, true]) := by decide

theorem test_cmpsw_t8 :
    (after ((((startState.memWrite16 0x2000 0x0010 0x8000).memWrite16 0x3000 0x0020 0x0001).setReg16 .si
        0x0010).setReg16 .di 0x0020) [0xA7]).map
      (fun t => (t.gpr.si, t.gpr.di, t.ip, [t.flags.ofl, t.flags.sf, t.flags.zf, t.flags.af, t.flags.pf,
        t.flags.cf])) = some (0x0012, 0x0022, 0x0101, [true, false, false, true, true, false]) := by decide

theorem test_stosb_t21 :
    (after ((startState.setReg16 .ax 0x1234).setReg16 .di 0x0020) [0xAA]).map
      (fun t => (Memory.read t.mem (phys 0x3000 0x0020), t.gpr.di, t.ip)) = some (0x34, 0x0021, 0x0101) := by decide

theorem test_lodsb_t17 :
    (after (((startState.setReg16 .ax 0xFFFF).setReg16 .si 0x0010).memWrite8 0x2000 0x0010 0x7E) [0xAC]).map
      (fun t => (t.gpr.ax, t.gpr.si, t.ip)) = some (0xFF7E, 0x0011, 0x0101) := by decide

theorem test_lodsw_t18 :
    (after (((startState.setReg16 .si 0x0010).memWrite16 0x2000 0x0010 0x1234).setFlags { Flags.clear with df := true
        }) [0xAD]).map
      (fun t => (t.gpr.ax, t.gpr.si, t.ip)) = some (0x1234, 0x000E, 0x0101) := by decide

theorem test_scasb_t16 :
    (after (((startState.setReg8 .al 0x42).setReg16 .di 0x0020).memWrite8 0x3000 0x0020 0x42) [0xAE]).map
      (fun t => (t.gpr.di, t.ip, [t.flags.ofl, t.flags.sf, t.flags.zf, t.flags.af, t.flags.pf, t.flags.cf])) = some
        (0x0021, 0x0101, [false, false, true, false, true, false]) := by decide

theorem test_rep_t15 :
    (after ((startState.setReg16 .cx 0x0000).setFlags { Flags.clear with zf := false }) [0xF3, 0xA6]).map
      (fun t => t.ip) = some 0x0102 := by decide

theorem test_call_near_h11 :
    (after startState [0xE8, 0x10, 0x00]).map
      (fun t => (t.gpr.sp, t.plainWord 0x4000 0x00FE, t.ip)) = some (0x00FE, 0x0103, 0x0113) := by decide

theorem test_call_ind_h13 :
    (after (startState.setReg16 .bx 0x2000) [0xFF, 0xD3]).map
      (fun t => (t.plainWord 0x4000 0x00FE, t.gpr.sp, t.ip)) = some (0x0102, 0x00FE, 0x2000) := by decide

theorem test_call_far_h16 :
    (after startState [0x9A, 0x78, 0x56, 0x34, 0x12]).map
      (fun t => (t.gpr.sp, t.plainWord 0x4000 0x00FE, t.plainWord 0x4000 0x00FC, t.seg.cs, t.ip)) = some (0x00FC,
        0x1000, 0x0105, 0x1234, 0x5678) := by decide

theorem test_ret_near_h18 :
    (after ((startState.setReg16 .sp 0x00FE).memWrite16 0x4000 0x00FE 0x1234) [0xC3]).map
      (fun t => (t.ip, t.gpr.sp)) = some (0x1234, 0x0100) := by decide

theorem test_ret_far_h21 :
    (after (((startState.setReg16 .sp 0x00FC).memWrite16 0x4000 0x00FC 0x5678).memWrite16 0x4000 0x00FE 0x1234)
        [0xCB]).map
      (fun t => (t.ip, t.seg.cs, t.gpr.sp)) = some (0x5678, 0x1234, 0x0100) := by decide

theorem test_jmp_short_h1 :
    (after startState [0xEB, 0x05]).map (fun t => t.ip) = some 0x0107 := by decide

theorem test_jmp_near_h4 :
    (after startState [0xE9, 0x00, 0x10]).map (fun t => t.ip) = some 0x1103 := by decide

theorem test_jmp_ind_h7 :
    (after (startState.setReg16 .bx 0x1234) [0xFF, 0xE3]).map (fun t => t.ip) = some 0x1234 := by decide

theorem test_jmp_far_h9 :
    (after startState [0xEA, 0x78, 0x56, 0x34, 0x12]).map
      (fun t => (t.seg.cs, t.ip)) = some (0x1234, 0x5678) := by decide

theorem test_jcxz_h39 :
    (after (startState.setReg16 .cx 0x0000) [0xE3, 0x06]).map (fun t => t.ip) = some 0x0108 := by decide

theorem test_loop_h31 :
    (after (startState.setReg16 .cx 0x0001) [0xE2, 0x10]).map
      (fun t => (t.gpr.cx, t.ip)) = some (0x0000, 0x0102) := by decide

theorem test_loope_h33 :
    (after ((startState.setReg16 .cx 0x0002).setFlags { Flags.clear with zf := true }) [0xE1, 0x10]).map
      (fun t => (t.gpr.cx, t.ip)) = some (0x0001, 0x0112) := by decide

theorem test_loopne_h38 :
    (after ((startState.setReg16 .cx 0x0000).setFlags { Flags.clear with zf := false }) [0xE0, 0xF0]).map
      (fun t => (t.gpr.cx, t.ip)) = some (0xFFFF, 0x00F2) := by decide

theorem test_iret_h51 :
    (after ((((startState.setReg16 .sp 0x00FA).memWrite16 0x4000 0x00FA 0x0102).memWrite16 0x4000 0x00FC
        0x1000).memWrite16 0x4000 0x00FE 0x0FD7) [0xCF]).map
      (fun t => (t.ip, t.seg.cs, t.gpr.sp)) = some (0x0102, 0x1000, 0x0100) := by decide

theorem test_enter_h62 :
    (after (((startState.setReg16 .bp 0x0200).memWrite16 0x4000 0x01FE 0xAAAA).memWrite16 0x4000 0x01FC 0xBBBB)
        [0xC8, 0x02, 0x00, 0x03]).map
      (fun t => (t.plainWord 0x4000 0x00FE, t.plainWord 0x4000 0x00FC, t.plainWord 0x4000 0x00FA, t.plainWord 0x4000
        0x00F8, t.gpr.bp)) = some (0x0200, 0xAAAA, 0xBBBB, 0x00FE, 0x00FE) := by decide

theorem test_leave_h67 :
    (after (((startState.setReg16 .bp 0x00FE).setReg16 .sp 0x00F0).memWrite16 0x4000 0x00FE 0x1234) [0xC9]).map
      (fun t => (t.gpr.sp, t.gpr.bp)) = some (0x0100, 0x1234) := by decide

theorem test_clc_j1 :
    (after (startState.setFlags { Flags.clear with cf := true }) [0xF8]).map
      (fun t => (t.ip, [t.flags.cf])) = some (0x0101, [false]) := by decide

theorem test_stc_j2 :
    (after (startState.setFlags { Flags.clear with cf := false }) [0xF9]).map
      (fun t => (t.ip, [t.flags.cf])) = some (0x0101, [true]) := by decide

theorem test_cmc_j3 :
    (after (startState.setFlags { Flags.clear with cf := true }) [0xF5]).map
      (fun t => (t.ip, [t.flags.cf])) = some (0x0101, [false]) := by decide

theorem test_cld_j4 :
    (after (startState.setFlags { Flags.clear with df := true }) [0xFC]).map
      (fun t => (t.ip, [t.flags.df])) = some (0x0101, [false]) := by decide

theorem test_std_j5 :
    (after (startState.setFlags { Flags.clear with df := false }) [0xFD]).map
      (fun t => (t.ip, [t.flags.df])) = some (0x0101, [true]) := by decide

theorem test_cli_j6 :
    (after (startState.setFlags { Flags.clear with ifl := true }) [0xFA]).map
      (fun t => (t.ip, [t.flags.ifl])) = some (0x0101, [false]) := by decide

theorem test_sti_j7 :
    (after (startState.setFlags { Flags.clear with ifl := false }) [0xFB]).map
      (fun t => (t.ip, [t.flags.ifl])) = some (0x0101, [true]) := by decide

theorem test_hlt_j8 :
    (after (startState.setFlags { Flags.clear with ifl := false }) [0xF4]).map
      (fun t => (t.ip, t.halted)) = some (0x0101, true) := by decide

theorem test_lock_j12 :
    (after (((startState.setReg16 .ax 0xAAAA).setReg16 .bx 0x0010).memWrite16 0x2000 0x0010 0x5555) [0xF0, 0x87,
        0x07]).map
      (fun t => (t.gpr.ax, t.plainWord 0x2000 0x0010, t.latches.lock)) = some (0x5555, 0xAAAA, false) := by decide

theorem test_seg_es_b32 :
    (after ((startState.setReg16 .di 0x0030).memWrite8 0x3000 0x0030 0x7F) [0x26, 0xFE, 0x05]).map
      (fun t => (Memory.read t.mem (phys 0x3000 0x0030), t.ip, [t.flags.ofl, t.flags.sf, t.flags.zf, t.flags.af,
        t.flags.pf, t.flags.cf])) = some (0x80, 0x0103, [true, true, false, true, false, false]) := by decide

theorem test_seg_cs_a50 :
    (after (((startState.setReg8 .al 0x02).setReg16 .bx 0x0300).memWrite8 0x1000 0x0302 0x99) [0x2E, 0xD7]).map
      (fun t => (t.reg8 .al, t.ip)) = some (0x99, 0x0102) := by decide

theorem test_seg_ss_j13 :
    (after ((startState.setReg16 .bx 0x0010).memWrite16 0x4000 0x0010 0x0BAD) [0x36, 0x8B, 0x07]).map
      (fun t => (t.gpr.ax, t.ip)) = some (0x0BAD, 0x0103) := by decide

theorem test_seg_ds_a7 :
    (after ((startState.setReg16 .bp 0x0020).memWrite16 0x2000 0x0020 0x4433) [0x3E, 0x8B, 0x46, 0x00]).map
      (fun t => (t.gpr.ax, t.ip)) = some (0x4433, 0x0104) := by decide

/-! ### Further steps -/

theorem test_popa_a37 :
    (after ((((((((startState.setReg16 .sp 0x00F0).memWrite16 0x4000 0x00F0 0x7777).memWrite16 0x4000 0x00F2
        0x6666).memWrite16 0x4000 0x00F6 0x9999).memWrite16 0x4000 0x00F8 0x4444).memWrite16 0x4000 0x00FA
        0x3333).memWrite16 0x4000 0x00FC 0x2222).memWrite16 0x4000 0x00FE 0x1111) [0x61]).map (fun t => t.gpr)
      = some { ax := 0x1111, cx := 0x2222, dx := 0x3333, bx := 0x4444, sp := 0x0100, bp := 0x0000, si := 0x6666,
               di := 0x7777 } := by decide

theorem test_lds_a55 :
    (after ((startState.memWrite16 0x2000 0x0200 0x1234).memWrite16 0x2000 0x0202 0x5000)
      [0xC5, 0x36, 0x00, 0x02]).map (fun t => (t.gpr.si, t.seg.ds, t.ip)) = some (0x1234, 0x5000, 0x0104) := by decide

theorem test_les_a56 :
    (after (((startState.setReg16 .bx 0x0010).memWrite16 0x2000 0x0010 0x5678).memWrite16 0x2000 0x0012 0x6000)
      [0xC4, 0x3F]).map (fun t => (t.gpr.di, t.seg.es, t.ip)) = some (0x5678, 0x6000, 0x0102) := by decide

/-- SF = AF = CF = 1: AH and D5H = 91H, whatever is drawn for its bits 5, 3 and 1 (S12). -/
theorem test_lahf_s12 (d : Word) :
    ∀ k ∈ [0, 2, 4, 6, 7], ({ Flags.clear with sf := true, af := true, cf := true }.lowByte d).getLsbD k
      = (0x91#8).getLsbD k := by
  intro k hk
  simp only [List.mem_cons, List.not_mem_nil, or_false] at hk
  simp only [Flags.lowByte, loByte, Flags.toWord, BitVec.getLsbD_extractLsb', BitVec.getLsbD_or, BitVec.getLsbD_and,
    Flags.image, flagsReservedMask]
  rcases hk with rfl | rfl | rfl | rfl | rfl <;> simp <;> rfl

theorem test_insw :
    (after (((answering.setReg16 .di 0x0020).setReg16 .dx 0x03F8).setFlags { Flags.clear with df := true })
      [0x6D]).map (fun t => (t.plainWord 0x3000 0x0020, t.gpr.di, t.env.events))
      = some (0x5A5A, 0x001E, [.inWord 0x03F8 0x5A5A]) := by decide

theorem test_outsw :
    (after (((startState.setReg16 .si 0x0020).setReg16 .dx 0x03F8).memWrite16 0x2000 0x0020 0xBEEF)
      [0x6F]).map (fun t => (t.gpr.si, t.env.events)) = some (0x0022, [.outWord 0x03F8 0xBEEF]) := by decide

theorem test_stosw :
    (after ((startState.setReg16 .ax 0x1234).setReg16 .di 0x0040) [0xAB]).map
      (fun t => (t.plainWord 0x3000 0x0040, t.gpr.di)) = some (0x1234, 0x0042) := by decide

theorem test_scasw :
    (after (((startState.setReg16 .ax 0x0001).setReg16 .di 0x0040).memWrite16 0x3000 0x0040 0x0002) [0xAF]).map
      (fun t => (t.gpr.di, [t.flags.cf, t.flags.zf, t.flags.sf, t.flags.ofl])) = some (0x0042, [true, false, true,
        false]) := by
  decide

/-- One iteration of REPNE SCASB that does not end: IP is again that of the prefix (43_string.md R241). -/
theorem test_repne :
    (after (((startState.setReg8 .al 0x42).setReg16 .cx 0x0003).setReg16 .di 0x0040) [0xF2, 0xAE]).map
      (fun t => (t.gpr.cx, t.gpr.di, t.ip)) = some (0x0002, 0x0041, 0x0100) := by decide

/-- REPE CMPSB on different bytes ends after one iteration (43_string.md R241). -/
theorem test_repe_ends :
    (after ((((startState.setReg16 .cx 0x0003).setReg16 .si 0x0010).setReg16 .di 0x0040).memWrite8 0x2000 0x0010 0x01)
      [0xF3, 0xA6]).map (fun t => (t.gpr.cx, t.gpr.si, t.ip)) = some (0x0002, 0x0011, 0x0102) := by decide

theorem test_call_far_ind_h17 :
    (after (((startState.setReg16 .bx 0x0010).memWrite16 0x2000 0x0010 0x5678).memWrite16 0x2000 0x0012 0x1234)
      [0xFF, 0x1F]).map (fun t => (t.plainWord 0x4000 0x00FE, t.plainWord 0x4000 0x00FC, t.gpr.sp, t.seg.cs, t.ip))
      = some (0x1000, 0x0102, 0x00FC, 0x1234, 0x5678) := by decide

theorem test_jmp_far_ind_h10 :
    (after (((startState.setReg16 .bx 0x0010).memWrite16 0x2000 0x0010 0x5678).memWrite16 0x2000 0x0012 0x1234)
      [0xFF, 0x2F]).map (fun t => (t.seg.cs, t.ip)) = some (0x1234, 0x5678) := by decide

/-- The offsets reached by the conditional jumps 70H to 7FH with displacement 10H in the flags `f`. -/
def jumps (f : Flags) : List Bool :=
  (List.range 16).map fun k =>
    (after (startState.setFlags f) [0x70 + BitVec.ofNat 8 k, 0x10]).map (fun t => t.ip) == some 0x0112

/-- S3 and the table of 44_control_transfer.md R280 after CMP 5, 5: equal. -/
theorem test_conditions_equal :
    jumps { Flags.clear with zf := true, pf := true }
      = [false, true, false, true, true, false, true, false, false, true, true, false, false, true, true, false] := by
  decide

/-- After CMP 5, 7: SF = AF = CF = 1 and PF = 0. -/
theorem test_conditions_below :
    jumps { Flags.clear with sf := true, af := true, cf := true }
      = [false, true, true, false, false, true, true, false, true, false, false, true, true, false, true, false] := by
  decide

/-- After CMP 7FH, FFH (S3): OF = SF = CF = 1: above as signed numbers, below as unsigned ones. -/
theorem test_conditions_overflow :
    jumps { Flags.clear with ofl := true, sf := true, cf := true }
      = [true, false, true, false, false, true, true, false, true, false, false, true, false, true, false, true] := by
  decide

/-- Interrupt pointers: type 3 at 5000H:0310H and type 21H at 6000H:0010H. -/
def vectored : State :=
  (((startState.memWrite16 0 0x000C 0x0310).memWrite16 0 0x000E 0x5000).memWrite16 0 0x0084 0x0010).memWrite16 0 0x0086
    0x6000

/-- K4 without TF: INT 21H. The words of the frame and of the pointer stand in memory beside a drawn FLAGS word, so
      they
are reached through the law and not by evaluation. -/
theorem test_int :
    (after (vectored.setFlags { Flags.clear with ifl := true }) [0xCD, 0x21]).map (fun t => (t.gpr.sp, t.flags.ifl))
      = some (0x00FA, false) := by decide

theorem test_int_vector :
    (vectored.interrupt 0x21 0x0102).seg.cs = 0x6000 ∧ (vectored.interrupt 0x21 0x0102).ip = 0x0010 := by
  obtain ⟨h1, h2⟩ := State.interrupt_vector vectored 0x21 0x0102 rfl (by decide)
  rw [h1, h2]
  decide

theorem test_int3 : exec .int3 vectored = .next (vectored.interrupt 3 0x0100) := rfl

theorem test_int3_vector : (vectored.interrupt 3 0x0101).seg.cs = 0x5000 ∧ (vectored.interrupt 3 0x0101).ip = 0x0310
      := by
  obtain ⟨h1, h2⟩ := State.interrupt_vector vectored 3 0x0101 rfl (by decide)
  rw [h1, h2]
  decide

theorem test_into :
    (after (vectored.setFlags { Flags.clear with ofl := true }) [0xCE]).map (fun t => (t.gpr.sp, t.flags.ofl))
      = some (0x00FA, true) := by decide

theorem test_into_h50 : (after vectored [0xCE]).map (fun t => (t.seg.cs, t.ip)) = some (0x1000, 0x0101) := by decide

/-- H43: an index equal to its lower bound passes. -/
theorem test_bound_h43 :
    (after (((vectored.memWrite16 0x2000 0x0200 0x8000).memWrite16 0x2000 0x0202 0x7FFF).setReg16 .ax 0x8000)
      [0x62, 0x06, 0x00, 0x02]).map (fun t => (t.seg.cs, t.ip, t.gpr.sp)) = some (0x1000, 0x0104, 0x0100) := by decide

/-- One above the upper bound: type 5. -/
theorem test_bound_fails :
    (after (((vectored.memWrite16 0x2000 0x0200 0x0000).memWrite16 0x2000 0x0202 0x000A).setReg16 .bx 0x000B)
      [0x62, 0x1E, 0x00, 0x02]).map (fun t => t.gpr.sp) = some 0x00FA := by decide

/-- S10: a quotient of 100H is type 0. -/
theorem test_div_error :
    (after ((vectored.setReg16 .ax 0x0200).setReg8 .bl 0x02) [0xF6, 0xF3]).map (fun t => t.gpr.sp) = some 0x00FA := by
  decide

theorem test_wait_inactive :
    (after (startState.setEnv { Env.reset with testLine := false }) [0x9B]).map (fun t => t.ip) = some 0x0100 := by
      decide

/-- Without a trap ESC with a register operand does nothing (J11). -/
theorem test_esc_register : startState.escAccess (.reg .cx) = startState := rfl

theorem test_nop : (after startState [0x90]).map (fun t => t.ip) = some 0x0101 := by decide

theorem test_unused : exec (.unused (.opcode 0xF1)) startState = .fault .unusedEncoding := rfl

/-! ### Interrupts, single step and reset -/

/-- NMI is taken before an instruction, as type 2, and its latch is cleared (60_exceptions.md R354). -/
theorem test_nmi :
    (nextOf (step { vectored with env := { Env.reset with nmiPending := true } })).map
      (fun t => (t.gpr.sp, t.env.nmiPending)) = some (0x00FA, false) := by decide

/-- INTR wakes a halted core if IF = 1 (45_processor_control.md R326). -/
theorem test_intr_halted :
    (nextOf (step { vectored with
        halted := true, flags := { Flags.clear with ifl := true }, env := { Env.reset with intrLine := some 0x21 }
          })).map
      (fun t => (t.gpr.sp, t.flags.ifl, t.halted)) = some (0x00FA, false, false) := by decide

/-- TF = 1: NOP, then the type 1 sequence with the offset after it (60_exceptions.md R352). -/
theorem test_single_step :
    (after (vectored.setFlags { Flags.clear with tf := true }) [0x90]).map
      (fun t => (t.gpr.sp, t.flags.tf)) = some (0x00FA, false) := by decide

theorem test_reset_line :
    (nextOf (step { vectored with env := { Env.reset with resetLine := true } })).map (fun t => (t.seg.cs, t.ip,
      t.seg.ss))
      = some (0xFFFF, 0x0000, 0x0000) := by decide

/-- A RESET line that becomes active after a stepped instruction comes before its single-step interrupt: nothing is
pushed, and the next step is the reset event (70_reset_and_hazards.md R380). -/
theorem test_reset_before_single_step :
    (after ((vectored.setFlags { Flags.clear with tf := true }).setEnv
        { Env.reset with inputs := [{ nmi := false, intr := none, test := true, reset := true }] }) [0x90]).map
      (fun t => (t.gpr.sp, t.ip, t.env.resetLine, (nextOf (step t)).map fun u => (u.seg.cs, u.flags.tf)))
      = some (0x0100, 0x0101, true, some (0xFFFF, false)) := by decide

def refusalOf : Host.Outcome State Fault Refusal → Option Refusal
  | .next _ => none
  | .fault _ => none
  | .refused r => some r

/-- A byte of the instruction was stored to since the last control transfer (20_memory.md R80). -/
theorem test_stale_code :
    refusalOf (step { startState.withFetchBytes [0x90] with stored := [0x10100] }) = some .staleCode := by decide

/-- Two segment overrides (92_eei_decisions.md D20). -/
theorem test_undecodable :
    refusalOf (step (startState.withFetchBytes [0x26, 0x2E, 0x90])) = some (.undecodable .repeatedPrefix) := by decide

/-- A byte access in a device window (20_memory.md R79). -/
def windowed : State := { answering with devices := [{ base := 0x20200, size := 2 }] }

theorem test_device_read :
    ((windowed.memRead8 0x2000 0x0201).1, (windowed.memRead8 0x2000 0x0201).2.env.events)
      = (0x5A, [.deviceRead 0x20201 0x5A]) := by decide

theorem test_device_write :
    ((windowed.memWrite8 0x2000 0x0200 0x77).mem, (windowed.memWrite8 0x2000 0x0200 0x77).env.events)
      = ([], [.deviceWrite 0x20200 0x77]) := by decide

/-! ### Witnesses: a state and operands that meet the hypotheses of each statement -/

/-- NOP at CS:IP. -/
def atNop : State := startState.withFetchBytes [0x90]

theorem witness_DecodeOfEncodeIsTheInstruction :
    (Instr.mov (.evIw (.mem (.disp16 .bp 0xFFFF)) 0x8000)).wellFormed = true
      ∧ (Instr.unused (.group 0xFF 0xFF)).wellFormed = true := by decide

theorem witness_DecodedBytesAreTheEncoding : decodeItem [0x90, 0xFF] = .ok (.nop, [0xFF]) := rfl

theorem witness_PrefixesPrecedeTheBody :
    (∀ p ∈ [Instr.segCs, .rep, .lock], (prefixItem p).isSome = true) ∧ ([Instr.segCs, .rep, .lock].map
      prefixItem).Nodup
      ∧ (prefixItem .movsb = none ∧ Instr.movsb.wellFormed = true ∧ stringPrimitive .nop = none)
      ∧ prefixItem .segDs = some .segment ∧ some PrefixClass.segment ∈ [Instr.segCs, .rep, .lock].map prefixItem := by
  refine ⟨by decide, by decide, ?_, by decide, by decide⟩
  exact ⟨rfl, rfl, rfl⟩

theorem witness_StepKeepsWellFormed : atNop.wf ∧ ∃ t, step atNop = .next t := by
  refine ⟨?_, ?_⟩
  · unfold State.wf
    decide
  · exact ⟨_, rfl⟩

/-- NOP, fresh and stale, and bytes that are refused. -/
theorem witness_StepRunsDecodedInstruction :
    (atNop.env.resetLine = false ∧ atNop.request = none ∧ atNop.halted = false ∧ atNop.freshFetch 1
        ∧ atNop.devices = [] ∧ atNop.env.inputs = [])
      ∧ decodeInstruction atNop.fetchWindow = .ok { items := [.nop], length := 1 }
      ∧ ¬ ({ atNop with stored := [0x10100] } : State).freshFetch 1
      ∧ decodeInstruction (startState.withFetchBytes [0x26, 0x2E, 0x90]).fetchWindow = .error .repeatedPrefix := by
  unfold State.freshFetch
  exact ⟨by decide, rfl, by decide, rfl⟩

theorem witness_StepRunsEncodedInstruction :
    Instr.nop.wellFormed = true ∧ prefixItem .nop = none ∧ atNop.devices = [] ∧ atNop.env.resetLine = false
      ∧ atNop.request = none ∧ atNop.halted = false
      ∧ (∀ k, k < (encode .nop).length →
          Memory.read atNop.mem (byteAddr atNop.seg.cs atNop.ip k) = (encode .nop).getD k 0)
      ∧ atNop.freshFetch (encode .nop).length := by
  unfold State.freshFetch
  decide

/-- Halted with IF = 0 and nothing coming. -/
theorem witness_HaltedCoreWaits :
    ({ startState with halted := true } : State).final ∧ ({ startState with halted := true } : State).env.quiet
      ∧ ({ startState with halted := true } : State).request = none := by
  refine ⟨?_, ?_, by decide⟩
  · unfold State.final
    decide
  · unfold Env.quiet
    decide

theorem witness_ResetLineRestarts :
    (startState.setEnv { Env.reset with resetLine := true }).env.resetLine = true
      ∧ (startState.setEnv { Env.reset with resetLine := true }).env.inputs = [] := by decide

/-- NMI with a maskable inhibit; INTR with IF = 1; the three ways to have no request. -/
theorem witness_ExternalInterruptsAreRecognised :
    (({ startState with inhibit := .maskable, env := { Env.reset with nmiPending := true } } : State).env.nmiPending =
      true
        ∧ Inhibit.maskable ≠ .all)
      ∧ ((startState.setFlags { Flags.clear with ifl := true }).setEnv { Env.reset with intrLine := some 0xFF
        }).maskableRequest
          = some 0xFF
      ∧ startState.env.nmiPending = false ∧ startState.env.intrLine = none ∧ startState.flags.ifl = false := by decide

/-- Types 0 and FFH, with a frame that ends below and above the table. -/
theorem witness_InterruptSequence :
    startState.devices = [] ∧ (∀ a ∈ startState.frameBytes, a ∉ vectorBytes 0)
      ∧ ∀ a ∈ startState.frameBytes, a ∉ vectorBytes 0xFF := by decide

/-- Every statement that asks for plain memory only. -/
theorem witness_plain_memory : startState.devices = [] ∧ startState.latches.rep = none := by decide

/-- The four divisions at the edge of an error: divisor 0, and a quotient one too large or too small. -/
theorem witness_DivideErrors :
    ((startState.setReg16 .ax 0x0100).setReg8 .bl 1).gpr.ax.toNat / (1 : Byte).toNat = 0xFF + 1
      ∧ (((startState.setReg16 .dx 1).setReg16 .bx 1).gpr.dx.toNat * 65536 + 0) / (1 : Word).toNat = 0xFFFF + 1
      ∧ ((0x0080 : Word).toInt.tdiv (1 : Byte).toInt = 128 ∧ (0xFF7F : Word).toInt.tdiv (1 : Byte).toInt = -129)
      ∧ ((0 : Word).toInt * 65536 + (0x8000 : Word).toNat).tdiv (1 : Word).toInt = 32768
      ∧ ((0xFFFF : Word).toInt * 65536 + (0x7FFF : Word).toNat).tdiv (1 : Word).toInt = -32769 := by decide

/-- NOP with TF = 1: with nothing pending, with NMI pending, and with RESET active after it. -/
theorem witness_SingleStepInterrupt :
    ∃ u, runItems [.nop] ((atNop.setFlags { Flags.clear with tf := true }).begin 1) = .next u ∧ u.inhibit ≠ .all
      ∧ (({ u with latches := Latches.idle } : State).advanceEnv).request = none
      ∧ (({ u with latches := Latches.idle } : State).advanceEnv).env.resetLine = false
      ∧ (({ u with latches := Latches.idle, env := { Env.reset with inputs := [⟨true, none, true, false⟩] } } :
        State).advanceEnv).request = some 2
      ∧ (({ u with latches := Latches.idle, env := { Env.reset with inputs := [⟨false, none, true, true⟩] } } :
        State).advanceEnv).env.resetLine = true :=
  ⟨_, rfl, by decide, by decide, by decide, by decide, by decide⟩

theorem witness_InhibitLastsOneInstruction :
    atNop.halted = false ∧ (∃ t, step atNop = .next t)
      ∧ ∀ i ∈ [Instr.nop], i ≠ .sti ∧ (∀ r e, i ≠ .movToSeg r e) ∧ ∀ r, i ≠ .popSeg r :=
  ⟨rfl, ⟨_, rfl⟩, by simp⟩

/-- An offset below FFFFH, the two readings of the next, the first and the last byte of a window and the bytes beside it,
with an answer and without one. -/
theorem witness_MemoryWordsAreLittleEndian :
    ((0xFFFE : Word) ≠ 0xFFFF ∧ (Config.segWrap = .wrap ∨ Config.segWrap = .linear))
      ∧ (windowed.inWindow 0x20200 ∧ windowed.inWindow 0x20201 ∧ ¬ windowed.inWindow 0x20202
        ∧ ¬ windowed.inWindow 0x201FF)
      ∧ windowed.env.answers = 0x5A5A :: [0x5A5A] ∧ startState.env.answers = [] ∧ startState.devices = [] := by
  refine ⟨⟨by decide, ?_⟩, ?_, by decide⟩
  · cases Config.segWrap
    · exact .inl rfl
    · exact .inr rfl
  · simp only [← State.isDevice_iff_inWindow]
    decide

theorem witness_Pops : ((startState.memWrite16 0x4000 0x0100 0xBEEF).memRead16 0x4000 0x0100).1 = 0xBEEF := by decide

/-- A byte port, a word port, and an answer that is there. -/
theorem witness_PortTransfers :
    portIsWord .byteDx = false ∧ portIsWord (.wordImm 0xFF) = true ∧ answering.env.answers = 0x5A5A :: [0x5A5A]
      ∧ answering.latches.rep = none ∧ answering.devices = [] := by decide

theorem witness_Multiplications : (-1 : Int) = (0xFFFF : Word).toInt * (1 : Word).toInt := by decide

/-- The four divisions at the largest and smallest quotients that fit without a choice of the model. -/
theorem witness_Divisions :
    (0xFEFF : Word).toNat / (0xFF : Byte).toNat = 0xFF
      ∧ ((0xFFFE : Word).toNat * 65536 + (0xFFFF : Word).toNat) / (0xFFFF : Word).toNat = 0xFFFF
      ∧ ((0x007F : Word).toInt = 127 * (1 : Byte).toInt + 0 ∧ (0xFF81 : Word).toInt = -127 * (1 : Byte).toInt + 0)
      ∧ (0xFFFB : Word).toInt = -2 * (2 : Byte).toInt + -1
      ∧ (0xFFFF : Word).toInt * 65536 + (0x8001 : Word).toNat = -32767 * (1 : Word).toInt + 0
      ∧ (0 : Word).toInt * 65536 + (0x7FFF : Word).toNat = 32767 * (1 : Word).toInt + 0 := by decide

/-- Low digits on both sides of 9. -/
theorem witness_UnpackedDecimalAdjusts :
    (startState.setReg16 .ax 0x010A).reg8 .al = 0x0A ∧ (startState.setReg16 .ax 0x0109).reg8 .ah = 0x01 := by decide

/-- AL = 99H and A6H are none of the open inputs of DAS; 9AH with CF = 0 is. -/
theorem witness_PackedDecimalAdjusts :
    (startState.setReg8 .al 0x99).reg8 .al = 0x99 ∧ dasOpen 0x99 false false = false ∧ dasOpen 0xA6 true false = false
      ∧ dasOpen 0x9A false false = true := by decide

theorem witness_PackedDecimalArithmetic : 99 < 100 ∧ (startState.setReg8 .al 0x99).reg8 .al = packed 99 := by decide

/-- Counts 0, 1 and 31 are themselves; 32 and more are the one or the other. -/
theorem witness_ShiftsAndRotates :
    (∀ b ∈ [(0 : Byte), 1, 31], b.toNat < 32) ∧ (∀ b ∈ [(32 : Byte), 255], 32 ≤ b.toNat)
      ∧ (Config.shiftCountMask = .whole ∨ Config.shiftCountMask = .low5)
      ∧ (startState.setReg8 .cl 0xFF).reg8 .cl = 0xFF := by
  refine ⟨by decide, by decide, ?_, by decide⟩
  cases Config.shiftCountMask
  · exact .inl rfl
  · exact .inr rfl

/-- CX = 0, CX = 1 and CX = FFFFH under a repeat prefix. -/
theorem witness_RepeatedStringStep :
    stringPrimitive .scasb = some (true, State.scas8)
      ∧ (startState.setLatches { Latches.idle with rep := some .repne }).latches.rep = some .repne
      ∧ startState.gpr.cx = 0 ∧ (startState.setReg16 .cx 1).gpr.cx ≠ 0 ∧ (startState.setReg16 .cx 0xFFFF).gpr.cx ≠ 0 :=
  ⟨rfl, rfl, rfl, by decide, by decide⟩

theorem witness_ConditionalJumps : ((0x7E : Byte), Instr.jle 0x80, false) ∈ conditionOf Flags.clear 0x80 := by decide

theorem witness_ConditionsAfterCompare : ∃ t, exec (.cmp (.alIb 0x80)) startState = .next t := ⟨_, rfl⟩

/-- An index at each bound and one beyond each. -/
theorem witness_BoundChecksIndex :
    (startState.memWrite16 0x2000 0x0202 0x000A).plainPointer (.direct 0x0200) = (0x0000, 0x000A)
      ∧ (0x0000 : Word).toInt ≤ (0x0000 : Word).toInt ∧ (0x000A : Word).toInt ≤ (0x000A : Word).toInt
      ∧ (0xFFFF : Word).toInt < (0x0000 : Word).toInt ∧ (0x000A : Word).toInt < (0x000B : Word).toInt := by decide

/-- Levels 0, 1 and 31 are themselves; a display at BP = 0200H does not overlap the frame at SP = 0100H. -/
theorem witness_EnterAndLeave :
    0 = enterLevel 0 ∧ 31 = enterLevel 31 ∧ 3 = enterLevel 3
      ∧ ∀ j ∈ [1, 2], ∀ k ∈ [0, 1, 2, 3], ∀ x ∈ wordBytes 0x4000 ((0x0200 : Word) - BitVec.ofNat 16 (2 * j)),
          x ∉ wordBytes 0x4000 ((0x0100 : Word) - 2 - BitVec.ofNat 16 (2 * k)) := by decide

/-- One of the two readings of ESC. -/
theorem witness_ProcessorControl : Config.escTraps = true ∨ Config.escTraps = false := by
  cases Config.escTraps
  · exact .inr rfl
  · exact .inl rfl

theorem witness_OnlyFarTransfersWriteCs : mayWriteCs (.callNear 0) = false ∧ ∃ t, exec (.callNear 0) startState =
      .next t :=
  ⟨rfl, _, rfl⟩

theorem witness_FlagsOutsideTheTableAreKept :
    FlagName.cf ∉ flagsWritten (.inc (.reg .ax)) ∧ ∃ t, exec (.inc (.reg .ax)) startState = .next t :=
  ⟨by decide, _, rfl⟩

theorem witness_OnlyPortInstructionsAreSeen :
    usesPort .pusha = false ∧ startState.devices = [] ∧ ∃ t, exec .pusha startState = .next t :=
  ⟨rfl, rfl, _, rfl⟩

end Sys2Proof.Tests
end

section
/-! PROOF. The flag bytes of LAHF and SAHF (40_data_transfer.md R147, R148): O29. -/

namespace Sys2Proof.Machine

theorem exec_lahf_eq (s : State) : exec .lahf s = execLahf s := rfl

theorem exec_sahf_eq (s : State) : exec .sahf s = execSahf s := rfl

/-! ### The byte that LAHF writes -/

/-- A digit of the image, read as a weighted sum, is its bit there. -/
theorem Flags.getLsbD_image_of_digit (f : Flags) {i : Nat} {b : Bool} (h : f.image.toNat / 2 ^ i % 2 = b.toNat) :
    f.image.getLsbD i = b := by
  rw [← BitVec.testBit_toNat, Nat.testBit_eq_decide_div_mod_eq, h]
  cases b <;> rfl

/-- The five flags of the low byte stand in their places in the image (10_state.md R31): the digits of the weighted
sum do not carry into one another. -/
theorem Flags.getLsbD_image_low (f : Flags) :
    f.image.getLsbD 7 = f.sf ∧ f.image.getLsbD 6 = f.zf ∧ f.image.getLsbD 4 = f.af ∧ f.image.getLsbD 2 = f.pf
      ∧ f.image.getLsbD 0 = f.cf := by
  have hsum := f.toNat_image
  have hcf := f.cf.toNat_le
  have hpf := f.pf.toNat_le
  have haf := f.af.toNat_le
  have hzf := f.zf.toNat_le
  have hsf := f.sf.toNat_le
  refine ⟨?sf, ?zf, ?af, ?pf, ?cf⟩
  all_goals
    apply f.getLsbD_image_of_digit
    omega

/-- Outside the reserved bits, the byte holds the image's bits whatever the draw is. -/
theorem Flags.getLsbD_lowByte (f : Flags) (d : Word) {i : Nat} (hi : i < 8)
    (hr : flagsReservedMask.getLsbD i = false) : (f.lowByte d).getLsbD i = f.image.getLsbD i := by
  rw [Flags.lowByte, getLsbD_loByte, Flags.toWord, BitVec.getLsbD_or, BitVec.getLsbD_and, hr]
  simp [hi]

/-- LAHF's byte holds the five flags in bits 7, 6, 4, 2 and 0 (R147). -/
theorem Flags.lowByte_holds_flags (f : Flags) (d : Word) :
    (f.lowByte d).getLsbD 7 = f.sf ∧ (f.lowByte d).getLsbD 6 = f.zf ∧ (f.lowByte d).getLsbD 4 = f.af
      ∧ (f.lowByte d).getLsbD 2 = f.pf ∧ (f.lowByte d).getLsbD 0 = f.cf := by
  simp (disch := decide) only [Flags.getLsbD_lowByte]
  exact f.getLsbD_image_low

/-! ### The two instructions -/

/-- Settles O29: LAHF is a draw, then a write of AH with the low byte of the flags; SAHF is a write of the flags. -/
theorem flagByteTransfers : Obligations.FlagByteTransfers := by
  intro s
  constructor
  · obtain ⟨hsf, hzf, haf, hpf, hcf⟩ := s.flags.lowByte_holds_flags s.draw.1
    have hrest := sameRest_trans (sameRest_draw s) (sameRest_setReg8 s.draw.2 .ah (s.flags.lowByte s.draw.1))
    exact ⟨rfl, _, _, exec_lahf_eq s, (Quiet.draw s).wrote8 (.reg .ah) _, hsf, hzf, haf, hpf, hcf, rfl, hrest⟩
  · obtain ⟨hnothing, -, hrest⟩ := (Quiet.refl s).setFlags (s.flags.withLowByte (s.reg8 .ah))
    exact ⟨rfl, _, exec_sahf_eq s, rfl, rfl, rfl, rfl, rfl, rfl, ⟨rfl, rfl, rfl⟩, hnothing, hrest⟩

end Sys2Proof.Machine
end

section
/-! PROOF. Addition, subtraction and sign extension (41_arithmetic.md R171 to R178, R190, R191): O30, O31, O32, O38. -/

namespace Sys2Proof.Machine

/-! ### The arms of the dispatch -/

theorem exec_add_eq (f : AluForm) (s : State) : exec (.add f) s = .next (s.binary addOp f) := rfl

theorem exec_adc_eq (f : AluForm) (s : State) : exec (.adc f) s = .next (s.binary adcOp f) := rfl

theorem exec_sub_eq (f : AluForm) (s : State) : exec (.sub f) s = .next (s.binary subOp f) := rfl

theorem exec_sbb_eq (f : AluForm) (s : State) : exec (.sbb f) s = .next (s.binary sbbOp f) := rfl

theorem exec_cmp_eq (f : AluForm) (s : State) : exec (.cmp f) s = .next (s.compare subOp f) := rfl

theorem exec_inc_eq (f : IncForm) (s : State) : exec (.inc f) s = .next (s.incForm incOp f) := rfl

theorem exec_dec_eq (f : IncForm) (s : State) : exec (.dec f) s = .next (s.incForm decOp f) := rfl

theorem exec_neg_eq (f : RmForm) (s : State) : exec (.neg f) s = .next (s.unary negOp f) := rfl

theorem exec_cbw_eq (s : State) :
    exec .cbw s = .next (s.write8 (.reg .ah) (if (s.reg8 .al).toNat < 0x80 then 0 else 0xFF)) := rfl

theorem exec_cwd_eq (s : State) :
    exec .cwd s = .next (s.write16 (.reg .dx) (if s.gpr.ax.toNat < 0x8000 then 0 else 0xFFFF)) := rfl

/-! ### Encodings -/

theorem toNat_opcodeWith (hi : BitVec 5) (lo : BitVec 3) : (opcodeWith hi lo).toNat = hi.toNat * 8 + lo.toNat := by
  rw [opcodeWith, BitVec.toNat_append, ← Nat.shiftLeft_add_eq_or_of_lt lo.isLt, Nat.shiftLeft_eq]

/-- The field in an opcode's low bits is added to the opcode base (30_encoding.md R94). -/
theorem opcodeWith_eq_add (hi : BitVec 5) (lo : BitVec 3) : opcodeWith hi lo = opcodeWith hi 0#3 + lo.setWidth 8 := by
  apply BitVec.eq_of_toNat_eq
  have hhi := hi.isLt
  have hlo := lo.isLt
  rw [BitVec.toNat_add, toNat_opcodeWith, toNat_opcodeWith, BitVec.toNat_setWidth, BitVec.toNat_zero]
  omega

/-- The encoder's two-operand rows are those of R170, with base 8n for digit n (30_encoding.md R104, R106). -/
theorem encodeAlu_eq_aluBytes (n : BitVec 3) (f : AluForm) :
    encodeAlu n f = aluBytes (opcodeWith (0#2 ++ n) 0) n f := by
  have row : ∀ k : BitVec 3, opcodeWith (0#2 ++ n) k = opcodeWith (0#2 ++ n) 0 + k.setWidth 8 :=
    opcodeWith_eq_add _
  cases f
  case ebGb e g => rfl
  case evGv e g => exact congrArg (· :: _) (row 1)
  case gbEb g e => exact congrArg (· :: _) (row 2)
  case gvEv g e => exact congrArg (· :: _) (row 3)
  case alIb imm => exact congrArg (· :: _) (row 4)
  case axIw imm => exact congrArg (· :: _) (row 5)
  case ebIb opc82 e imm => rfl
  case evIw e imm => rfl
  case evIs e imm => rfl

/-- The encoder's rows of INC and DEC are those of R173 and R176. -/
theorem encodeInc_eq_incBytes (digit : BitVec 3) (f : IncForm) :
    encodeInc digit f = incBytes (opcodeWith (0b01#2 ++ digit) 0) digit f := by
  cases f
  case reg r => exact congrArg (fun b => [b]) (opcodeWith_eq_add _ _)
  case eb e => rfl
  case ev e => rfl

/-! ### The flag computations at the two data widths -/

theorem overflow_add {w : Nat} (hw : w = 8 ∨ w = 16) (a b : BitVec w) (c : Bool) :
    signedOutside w (a.toInt + b.toInt + carryInt c) = ((a.msb == b.msb) && ((sumOf a b c).msb != a.msb)) := by
  obtain rfl | rfl := hw
  · exact overflow_add8 a b c
  · exact overflow_add16 a b c

theorem overflow_sub {w : Nat} (hw : w = 8 ∨ w = 16) (a b : BitVec w) (c : Bool) :
    signedOutside w (a.toInt - b.toInt - carryInt c)
      = ((a.msb != b.msb) && ((differenceOf a b c).msb != a.msb)) := by
  obtain rfl | rfl := hw
  · exact overflow_sub8 a b c
  · exact overflow_sub16 a b c

theorem addFlagsButCf_addKeepCf {w : Nat} (hw : w = 8 ∨ w = 16) (f : Flags) (a b : BitVec w) (c : Bool) :
    addFlagsButCf (f.addKeepCf a b c) a b c :=
  ⟨rfl, overflow_add hw a b c, resultFlags_setSzp f (sumOf a b c)⟩

theorem subFlagsButCf_subKeepCf {w : Nat} (hw : w = 8 ∨ w = 16) (f : Flags) (a b : BitVec w) (c : Bool) :
    subFlagsButCf (f.subKeepCf a b c) a b c :=
  ⟨rfl, overflow_sub hw a b c, subResult_eq a b c ▸ resultFlags_setSzp f (subResult a b c)⟩

theorem controlFlagsKept_addKeepCf {w : Nat} (f : Flags) (a b : BitVec w) (c : Bool) :
    controlFlagsKept f (f.addKeepCf a b c) := ⟨rfl, rfl, rfl⟩

theorem controlFlagsKept_subKeepCf {w : Nat} (f : Flags) (a b : BitVec w) (c : Bool) :
    controlFlagsKept f (f.subKeepCf a b c) := ⟨rfl, rfl, rfl⟩

theorem addFlags_add {w : Nat} (hw : w = 8 ∨ w = 16) (f : Flags) (a b : BitVec w) (c : Bool) :
    addFlags f (f.add a b c) a b c :=
  ⟨rfl, addFlagsButCf_addKeepCf hw f a b c, controlFlagsKept_addKeepCf f a b c⟩

theorem subFlags_sub {w : Nat} (hw : w = 8 ∨ w = 16) (f : Flags) (a b : BitVec w) (c : Bool) :
    subFlags f (f.sub a b c) a b c :=
  ⟨rfl, subFlagsButCf_subKeepCf hw f a b c, controlFlagsKept_subKeepCf f a b c⟩

/-! ### Two operands -/

/-- An operation that answers the sum and its flags, in every form: ADD and ADC. -/
theorem State.binary_added (s : State) {op : BinaryOp} {c : Bool}
    (hop : ∀ (w : Nat) (a b : BitVec w), op w a b s.flags = (sumOf a b c, s.flags.add a b c)) (f : AluForm) :
    added s (s.binary op f) c (aluOperands s f) := by
  have h := s.binary_spec op f
  generalize aluOperands s f = o at h ⊢
  cases o
  all_goals
    simp only [hop] at h
    obtain ⟨hwrote, hflags, hrest⟩ := h
    exact ⟨hwrote, hflags ▸ addFlags_add (by simp) s.flags _ _ c, hrest⟩

/-- An operation that answers the difference and its flags, in every form: SUB and SBB. -/
theorem State.binary_subtracted (s : State) {op : BinaryOp} {c : Bool}
    (hop : ∀ (w : Nat) (a b : BitVec w), op w a b s.flags = (differenceOf a b c, s.flags.sub a b c)) (f : AluForm) :
    subtracted s (s.binary op f) c (aluOperands s f) := by
  have h := s.binary_spec op f
  generalize aluOperands s f = o at h ⊢
  cases o
  all_goals
    simp only [hop] at h
    obtain ⟨hwrote, hflags, hrest⟩ := h
    exact ⟨hwrote, hflags ▸ subFlags_sub (by simp) s.flags _ _ c, hrest⟩

/-- CMP's operation is SUB's, of which only the flags are written. -/
theorem State.compare_compared (s : State) (f : AluForm) : compared s (s.compare subOp f) (aluOperands s f) := by
  have h := s.compare_spec subOp f
  generalize aluOperands s f = o at h ⊢
  cases o
  all_goals
    obtain ⟨hnothing, hflags, hrest⟩ := h
    exact ⟨hnothing, hflags ▸ subFlags_sub (by simp) s.flags _ _ false, hrest⟩

theorem addOp_eq {w : Nat} (a b : BitVec w) (f : Flags) : addOp w a b f = (sumOf a b false, f.add a b false) := rfl

theorem adcOp_eq {w : Nat} (a b : BitVec w) (f : Flags) : adcOp w a b f = (sumOf a b f.cf, f.add a b f.cf) := rfl

theorem subOp_eq {w : Nat} (a b : BitVec w) (f : Flags) :
    subOp w a b f = (differenceOf a b false, f.sub a b false) := by
  rw [subOp, subResult_eq]

theorem sbbOp_eq {w : Nat} (a b : BitVec w) (f : Flags) :
    sbbOp w a b f = (differenceOf a b f.cf, f.sub a b f.cf) := by
  rw [sbbOp, subResult_eq]

/-- Settles O30: ADD and ADC are one addition, without and with CF as its carry-in. -/
theorem additions : Obligations.Additions := by
  intro f s
  exact ⟨encodeAlu_eq_aluBytes 0 f, encodeAlu_eq_aluBytes 2 f,
    ⟨_, exec_add_eq f s, s.binary_added (fun _ a b => addOp_eq a b s.flags) f⟩,
    ⟨_, exec_adc_eq f s, s.binary_added (fun _ a b => adcOp_eq a b s.flags) f⟩⟩

/-- Settles O31: SUB and SBB are one subtraction, without and with CF as its borrow-in; CMP keeps SUB's flags only. -/
theorem subtractions : Obligations.Subtractions := by
  intro f s
  exact ⟨encodeAlu_eq_aluBytes 5 f, encodeAlu_eq_aluBytes 3 f, encodeAlu_eq_aluBytes 7 f,
    ⟨_, exec_sub_eq f s, s.binary_subtracted (fun _ a b => subOp_eq a b s.flags) f⟩,
    ⟨_, exec_sbb_eq f s, s.binary_subtracted (fun _ a b => sbbOp_eq a b s.flags) f⟩,
    ⟨_, exec_cmp_eq f s, s.compare_compared f⟩⟩

/-! ### One operand -/

theorem decOp_eq {w : Nat} (a : BitVec w) (f : Flags) :
    decOp w a f = (differenceOf a (1#w) false, f.subKeepCf a (1#w) false) := by
  rw [decOp, subResult_eq]

theorem negOp_eq {w : Nat} (a : BitVec w) (f : Flags) :
    negOp w a f = (differenceOf (0#w) a false, f.sub (0#w) a false) := by
  rw [negOp, subResult_eq]

theorem State.incForm_incremented (s : State) (f : IncForm) :
    incremented s (s.incForm incOp f) (incOperand s f) := by
  have h := s.incForm_spec incOp f
  generalize incOperand s f = o at h ⊢
  cases o
  all_goals
    obtain ⟨hwrote, hflags, hrest⟩ := h
    rw [incremented, hflags]
    exact ⟨hwrote, addFlagsButCf_addKeepCf (by simp) s.flags _ _ false, rfl,
      controlFlagsKept_addKeepCf s.flags _ _ false, hrest⟩

theorem State.incForm_decremented (s : State) (f : IncForm) :
    decremented s (s.incForm decOp f) (incOperand s f) := by
  have h := s.incForm_spec decOp f
  generalize incOperand s f = o at h ⊢
  cases o
  all_goals
    simp only [decOp_eq] at h
    obtain ⟨hwrote, hflags, hrest⟩ := h
    rw [decremented, hflags]
    exact ⟨hwrote, subFlagsButCf_subKeepCf (by simp) s.flags _ _ false, rfl,
      controlFlagsKept_subKeepCf s.flags _ _ false, hrest⟩

theorem State.unary_negated (s : State) (f : RmForm) : negated s (s.unary negOp f) (rmOperand s f) := by
  have h := s.unary_spec negOp f
  generalize rmOperand s f = o at h ⊢
  cases o
  all_goals
    simp only [negOp_eq] at h
    obtain ⟨hwrote, hflags, hrest⟩ := h
    exact ⟨hwrote, hflags ▸ subFlags_sub (by simp) s.flags _ _ false, hrest⟩

/-- Settles O32: INC adds 1 and DEC subtracts 1 without touching CF; NEG is the whole subtraction from 0. -/
theorem incDecNeg : Obligations.IncDecNeg := by
  intro s
  refine ⟨fun f => ?inc, fun f => ?dec, fun f => ?neg⟩
  case inc => exact ⟨encodeInc_eq_incBytes 0 f, _, exec_inc_eq f s, s.incForm_incremented f⟩
  case dec => exact ⟨encodeInc_eq_incBytes 1 f, _, exec_dec_eq f s, s.incForm_decremented f⟩
  case neg =>
    refine ⟨?_, _, exec_neg_eq f s, s.unary_negated f⟩
    cases f
    case eb e => rfl
    case ev e => rfl

/-! ### Sign extension -/

/-- Zeros above a value below half of its range, and ones above any other, are its sign extension. -/
theorem signFill_append {w : Nat} (v : Nat) (x : BitVec w) :
    (if x.toNat < 2 ^ (w - 1) then 0#v else BitVec.allOnes v) ++ x = x.signExtend (v + w) := by
  apply BitVec.eq_of_getLsbD_eq
  intro i hi
  rw [BitVec.getLsbD_append, BitVec.getLsbD_signExtend, BitVec.msb_eq_decide]
  by_cases hlow : i < w
  · simp [hlow, hi]
  · have hfill : i - w < v := by omega
    by_cases hx : x.toNat < 2 ^ (w - 1)
    · simp [hlow, hi, hx]
    · have hsign : 2 ^ (w - 1) ≤ x.toNat := by omega
      simp [hlow, hi, hx, hfill, hsign]

/-- Settles O38: CBW and CWD write one register, and the value written fills the upper half with the sign. -/
theorem signExtensions : Obligations.SignExtensions := by
  intro s
  constructor
  · have hax : ∀ v, (s.write8 (.reg .ah) v).gpr.ax = v ++ s.reg8 .al := fun _ => rfl
    exact ⟨rfl, _, exec_cbw_eq s, wrote8_write8 s (.reg .ah) _, rfl, sameRest_write8 s (.reg .ah) _,
      (hax _).trans (signFill_append 8 (s.reg8 .al))⟩
  · have hdxAx : ∀ v, (s.write16 (.reg .dx) v).gpr.dx ++ (s.write16 (.reg .dx) v).gpr.ax = v ++ s.gpr.ax :=
      fun _ => rfl
    exact ⟨rfl, _, exec_cwd_eq s, wrote16_write16 s (.reg .dx) _, rfl, sameRest_write16 s (.reg .dx) _,
      (hdxAx _).trans (signFill_append 16 s.gpr.ax)⟩

end Sys2Proof.Machine
end

section
/-! PROOF. The logical operations of two operands and TEST (42_logic_shift.md R210, R212 to R215): O39. -/

namespace Sys2Proof.Machine

theorem exec_and_eq (f : AluForm) (s : State) :
    exec (.and f) s = .next (s.binary (logicOp andBits s.draw.1) f).draw.2 := rfl

theorem exec_or_eq (f : AluForm) (s : State) :
    exec (.or f) s = .next (s.binary (logicOp orBits s.draw.1) f).draw.2 := rfl

theorem exec_xor_eq (f : AluForm) (s : State) :
    exec (.xor f) s = .next (s.binary (logicOp xorBits s.draw.1) f).draw.2 := rfl

theorem exec_test_eq (f : TestForm) (s : State) :
    exec (.test f) s = .next (s.testForm (logicOp andBits s.draw.1) f).draw.2 := rfl

/-- Whatever word is drawn for AF, the other flags are those of R210. -/
theorem logicFlags_logic {w : Nat} (f : Flags) (r : BitVec w) (d : Word) : logicFlags f (f.logic r d) r :=
  ⟨rfl, rfl, resultFlags_of rfl rfl rfl, rfl, rfl, rfl⟩

/-- A draw changes no register and no byte of memory. -/
theorem wroteNothing_draw {s t : State} (h : wroteNothing s t) : wroteNothing s t.draw.2 := h

/-- A bitwise operation, in every form and for every drawn word: AND, OR and XOR. -/
theorem State.binary_combined (s : State) (op : Bitwise) (d : Word) (f : AluForm) :
    combined s (s.binary (logicOp op d) f).draw.2 op (aluOperands s f) := by
  have h := s.binary_spec (logicOp op d) f
  generalize aluOperands s f = o at h ⊢
  cases o
  case byte dst a b =>
    obtain ⟨hwrote, hflags, hrest⟩ := h
    exact ⟨wrote8_draw hwrote, hflags ▸ logicFlags_logic s.flags (op 8 a b) d, sameRest_trans hrest (sameRest_draw _)⟩
  case word dst a b =>
    obtain ⟨hwrote, hflags, hrest⟩ := h
    exact ⟨wrote16_draw hwrote, hflags ▸ logicFlags_logic s.flags (op 16 a b) d, sameRest_trans hrest (sameRest_draw _)⟩

/-- TEST's operation is AND's, of which only the flags are written. -/
theorem State.testForm_tested (s : State) (d : Word) (f : TestForm) :
    tested s (s.testForm (logicOp andBits d) f).draw.2 (testOperands s f) := by
  have h := s.testForm_spec (logicOp andBits d) f
  generalize testOperands s f = o at h ⊢
  cases o
  all_goals
    obtain ⟨hnothing, hflags, hrest⟩ := h
    exact ⟨wroteNothing_draw hnothing, hflags ▸ logicFlags_logic s.flags (_ &&& _) d,
      sameRest_trans hrest (sameRest_draw _)⟩

/-- Settles O39: AND, OR and XOR differ in their bitwise operation alone; TEST writes AND's flags only. -/
theorem logicalOperations : Obligations.LogicalOperations := by
  intro s
  refine ⟨fun f => ?_, fun f => ⟨_, exec_test_eq f s, s.testForm_tested _ f⟩⟩
  exact ⟨encodeAlu_eq_aluBytes 4 f, encodeAlu_eq_aluBytes 1 f, encodeAlu_eq_aluBytes 6 f,
    ⟨_, exec_and_eq f s, s.binary_combined andBits _ f⟩,
    ⟨_, exec_or_eq f s, s.binary_combined orBits _ f⟩,
    ⟨_, exec_xor_eq f s, s.binary_combined xorBits _ f⟩⟩

end Sys2Proof.Machine
end

section
/-! PROOF. The jumps (44_control_transfer.md R267 to R270, R280 to R302): O48, O49, O51. -/

namespace Sys2Proof.Machine

/-! ### What a jump keeps -/

/-- What every JMP and every conditional jump leaves as it was; IP, CS and the prefetch queue are not said. -/
def keptByJump (s t : State) : Prop :=
  wroteNothing s t ∧ t.flags = s.flags ∧ t.inhibit = s.inhibit ∧ sameControl s t

theorem keptByJump_of_quiet {s r : State} (h : Quiet s r) : keptByJump s r := by
  have ⟨⟨_, _, _, hflags, _⟩, _, _⟩ := h
  obtain ⟨-, -, hinhibit, hcontrol⟩ := h.sameRest
  exact ⟨h.wroteNothing, hflags, hinhibit, hcontrol⟩

theorem keptByJump_jumpTo {s r : State} (h : keptByJump s r) (v : Word) : keptByJump s (r.jumpTo v) := h

theorem keptByJump_farJumpTo {s r : State} (h : keptByJump s r) (seg off : Word) :
    keptByJump s (r.farJumpTo seg off) := h

/-! ### The three transfers -/

/-- An intra-segment transfer, whose target may have been read from memory or a device before. -/
theorem Quiet.jumpTo_spec {s r : State} (h : Quiet s r) (v : Word) :
    (r.jumpTo v).ip = v ∧ (r.jumpTo v).seg = s.seg ∧ (r.jumpTo v).stored = [] ∧ keptByJump s (r.jumpTo v) := by
  obtain ⟨hseg, -⟩ := h.sameRest
  exact ⟨rfl, hseg, rfl, keptByJump_jumpTo (keptByJump_of_quiet h) v⟩

/-- An inter-segment transfer, whose target may have been read from memory or a device before. -/
theorem Quiet.farJumpTo_spec {s r : State} (h : Quiet s r) (seg off : Word) :
    (r.farJumpTo seg off).ip = off ∧ (r.farJumpTo seg off).seg = { s.seg with cs := seg }
      ∧ (r.farJumpTo seg off).stored = [] ∧ keptByJump s (r.farJumpTo seg off) := by
  obtain ⟨hseg, -⟩ := h.sameRest
  have hcs : (r.farJumpTo seg off).seg = { s.seg with cs := seg } := hseg ▸ rfl
  exact ⟨rfl, hcs, rfl, keptByJump_farJumpTo (keptByJump_of_quiet h) seg off⟩

/-- A conditional transfer, taken or not (R280). -/
theorem State.jumpIf_spec (s : State) (cond : Bool) (rel : Byte) :
    (s.jumpIf cond rel).ip = (if cond then s.ip + rel.signExtend 16 else s.ip) ∧ (s.jumpIf cond rel).seg = s.seg
      ∧ keptByJump s (s.jumpIf cond rel) := by
  cases cond
  case false => exact ⟨rfl, rfl, keptByJump_of_quiet (Quiet.refl s)⟩
  case true =>
    obtain ⟨hip, hseg, -, hkept⟩ := (Quiet.refl s).jumpTo_spec (s.ip + rel.signExtend 16)
    exact ⟨hip, hseg, hkept⟩

/-! ### JMP (R267 to R270) -/

theorem exec_jmpShort_eq (rel : Byte) (s : State) :
    exec (.jmpShort rel) s = .next (s.jumpTo (s.ip + rel.signExtend 16)) := rfl

theorem exec_jmpNear_eq (rel : Word) (s : State) : exec (.jmpNear rel) s = .next (s.jumpTo (s.ip + rel)) := rfl

theorem exec_jmpInd_eq (e : RM Reg16) (s : State) :
    exec (.jmpInd e) s = .next ((s.read16 (s.loc e)).2.jumpTo (s.read16 (s.loc e)).1) := rfl

theorem exec_jmpFar_eq (off seg : Word) (s : State) : exec (.jmpFar off seg) s = .next (s.farJumpTo seg off) := rfl

theorem exec_jmpFarInd_eq (m : Mem) (s : State) :
    exec (.jmpFarInd m) s
      = .next ((s.readPointer m).2.farJumpTo (s.readPointer m).1.2 (s.readPointer m).1.1) := rfl

/-- Settles O48: every JMP is reads alone, then one transfer. -/
theorem jumps : Obligations.Jumps := by
  intro s
  refine ⟨fun rel => ?short, fun rel => ?near, fun e => ?indirect, fun off seg => ?far, fun m => ?farIndirect⟩
  case short => exact ⟨rfl, _, exec_jmpShort_eq rel s, (Quiet.refl s).jumpTo_spec _⟩
  case near => exact ⟨rfl, _, exec_jmpNear_eq rel s, (Quiet.refl s).jumpTo_spec _⟩
  case indirect => exact ⟨rfl, _, exec_jmpInd_eq e s, (Quiet.read16 s (s.loc e)).jumpTo_spec _⟩
  case far => exact ⟨rfl, _, exec_jmpFar_eq off seg s, (Quiet.refl s).farJumpTo_spec seg off⟩
  case farIndirect => exact ⟨rfl, _, exec_jmpFarInd_eq m s, (Quiet.readPointer s m).farJumpTo_spec _ _⟩

/-! ### Conditional jumps (R280 to R298) -/

theorem Flags.not_belowOrEqual (f : Flags) : (!f.belowOrEqual) = (!f.cf && !f.zf) := Bool.not_or f.cf f.zf

theorem Flags.not_less (f : Flags) : (!f.less) = (f.sf == f.ofl) := Bool.not_not (f.sf == f.ofl)

theorem Flags.not_lessOrEqual (f : Flags) : (!f.lessOrEqual) = ((f.sf == f.ofl) && !f.zf) := by
  rw [Flags.lessOrEqual, Bool.not_or, bne, Bool.not_not]

theorem exec_ja_eq (rel : Byte) (s : State) : exec (.ja rel) s = .next (s.jumpIf (!s.flags.cf && !s.flags.zf) rel) :=
  s.flags.not_belowOrEqual ▸ rfl

theorem exec_jge_eq (rel : Byte) (s : State) : exec (.jge rel) s = .next (s.jumpIf (s.flags.sf == s.flags.ofl) rel) :=
  s.flags.not_less ▸ rfl

theorem exec_jg_eq (rel : Byte) (s : State) :
    exec (.jg rel) s = .next (s.jumpIf ((s.flags.sf == s.flags.ofl) && !s.flags.zf) rel) :=
  s.flags.not_lessOrEqual ▸ rfl

/-- A row of the table of R280, opcode, instruction and condition, is what the encoder and `exec` make of it. -/
def rowHolds (s : State) (rel : Byte) (row : Byte × Instr × Bool) : Prop :=
  encode row.2.1 = [row.1, rel] ∧ exec row.2.1 s = .next (s.jumpIf row.2.2 rel)

/-- Row by row, in the order of `conditionOf`. The model computes the conditions of JA, JGE and JG as the negations of
those of JBE, JL and JLE, where the table states them by themselves. -/
theorem rowHolds_of_mem_conditionOf (s : State) (rel : Byte) :
    ∀ row ∈ conditionOf s.flags rel, rowHolds s rel row := by
  simp only [conditionOf, List.forall_mem_append, List.forall_mem_cons, List.not_mem_nil, false_implies, implies_true,
    and_true]
  refine ⟨⟨?jo, ?jno, ?jb, ?jc, ?jae, ?jnc, ?je, ?jne, ?jbe, ?ja⟩, ?js, ?jns, ?jp, ?jnp, ?jl, ?jge, ?jle, ?jg⟩
  case ja => exact ⟨rfl, exec_ja_eq rel s⟩
  case jge => exact ⟨rfl, exec_jge_eq rel s⟩
  case jg => exact ⟨rfl, exec_jg_eq rel s⟩
  all_goals exact ⟨rfl, rfl⟩

/-- Settles O49: every row of the table is the one conditional transfer, under the row's condition. -/
theorem conditionalJumps : Obligations.ConditionalJumps := by
  intro s rel opcode i condition hrow
  obtain ⟨hencode, hexec⟩ := rowHolds_of_mem_conditionOf s rel _ hrow
  exact ⟨hencode, _, hexec, s.jumpIf_spec condition rel⟩

/-! ### JCXZ and the loops (R299 to R302) -/

theorem exec_jcxz_eq (rel : Byte) (s : State) : exec (.jcxz rel) s = .next (s.jumpIf (decide (s.gpr.cx = 0)) rel) := rfl

theorem exec_loop_eq (rel : Byte) (s : State) : exec (.loop rel) s = .next (s.loopWhile true rel) := rfl

theorem exec_loope_eq (rel : Byte) (s : State) : exec (.loope rel) s = .next (s.loopWhile s.flags.zf rel) := rfl

theorem exec_loopne_eq (rel : Byte) (s : State) : exec (.loopne rel) s = .next (s.loopWhile (!s.flags.zf) rel) := rfl

/-- A loop writes the lower count to CX, then is the conditional transfer; `p` is its condition on ZF, stated as the source
does. -/
theorem State.loopWhile_spec (s : State) {cond : Bool} {p : Prop} [Decidable p] (hp : cond = true ↔ p) (rel : Byte) :
    (s.loopWhile cond rel).gpr = { s.gpr with cx := s.gpr.cx - 1 }
      ∧ (s.loopWhile cond rel).ip
          = (if p ∧ (s.loopWhile cond rel).gpr.cx ≠ 0 then s.ip + rel.signExtend 16 else s.ip)
      ∧ memKept s (s.loopWhile cond rel) ∧ (s.loopWhile cond rel).seg = s.seg
      ∧ (s.loopWhile cond rel).flags = s.flags ∧ (s.loopWhile cond rel).inhibit = s.inhibit
      ∧ sameControl s (s.loopWhile cond rel) := by
  obtain ⟨hip, hseg, ⟨hgpr, hmem⟩, hrest⟩ :=
    (s.setReg16 .cx (s.gpr.cx - 1)).jumpIf_spec (cond && decide (s.gpr.cx - 1 ≠ 0)) rel
  have hcx : (s.loopWhile cond rel).gpr.cx = s.gpr.cx - 1 := congrArg Gpr.cx hgpr
  have hjumps : (cond && decide (s.gpr.cx - 1 ≠ 0)) = true ↔ p ∧ (s.loopWhile cond rel).gpr.cx ≠ 0 := by
    rw [Bool.and_eq_true, decide_eq_true_iff, hp, hcx]
  exact ⟨hgpr, hip.trans (if_congr hjumps rfl rfl), hmem, hseg, hrest⟩

/-- Settles O51: JCXZ is the conditional transfer on CX = 0; the three loops are one loop under three conditions. -/
theorem counterJumps : Obligations.CounterJumps := by
  intro s rel
  refine ⟨⟨rfl, _, exec_jcxz_eq rel s, ?jcxz⟩, ⟨rfl, _, exec_loop_eq rel s, ?loop⟩,
    ⟨rfl, _, exec_loope_eq rel s, ?loope⟩, ⟨rfl, _, exec_loopne_eq rel s, ?loopne⟩⟩
  case jcxz =>
    obtain ⟨hip, hseg, hnothing, hrest⟩ := s.jumpIf_spec (decide (s.gpr.cx = 0)) rel
    exact ⟨hip.trans (if_congr decide_eq_true_iff rfl rfl), hnothing, hseg, hrest⟩
  case loop => simpa only [true_and] using s.loopWhile_spec (iff_true_intro rfl) rel
  case loope => exact s.loopWhile_spec Iff.rfl rel
  case loopne => exact s.loopWhile_spec (Bool.not_eq_true' s.flags.zf).to_iff rel

end Sys2Proof.Machine
end

section
/-! PROOF. The instructions that write one flag (45_processor_control.md R320 to R325): O54. -/

namespace Sys2Proof.Machine

/-! ### The arms of the dispatch: the state's one update is of its flags -/

theorem exec_clc_eq (s : State) : exec .clc s = .next (s.setFlags { s.flags with cf := false }) := rfl

theorem exec_stc_eq (s : State) : exec .stc s = .next (s.setFlags { s.flags with cf := true }) := rfl

theorem exec_cmc_eq (s : State) : exec .cmc s = .next (s.setFlags { s.flags with cf := !s.flags.cf }) := rfl

theorem exec_cld_eq (s : State) : exec .cld s = .next (s.setFlags { s.flags with df := false }) := rfl

theorem exec_std_eq (s : State) : exec .std s = .next (s.setFlags { s.flags with df := true }) := rfl

theorem exec_cli_eq (s : State) : exec .cli s = .next (s.setFlags { s.flags with ifl := false }) := rfl

/-- Settles O54: each instruction has its one opcode byte, and its arm of the dispatch updates one flag. -/
theorem flagInstructions : Obligations.FlagInstructions := by
  intro s
  exact ⟨⟨rfl, exec_clc_eq s⟩, ⟨rfl, exec_stc_eq s⟩, ⟨rfl, exec_cmc_eq s⟩, ⟨rfl, exec_cld_eq s⟩, ⟨rfl, exec_std_eq s⟩,
    rfl, exec_cli_eq s⟩

end Sys2Proof.Machine
end

section
/-! PROOF. The decoder and the encoder, piece by piece (30_encoding.md R94 to R112): O1, O2, O3. -/

namespace Sys2Proof

/-! ### Register numbers and words -/

@[simp] theorem Reg16.ofBits_toBits (r : Reg16) : Reg16.ofBits r.toBits = r := by cases r <;> rfl

@[simp] theorem Reg8.ofBits_toBits (r : Reg8) : Reg8.ofBits r.toBits = r := by cases r <;> rfl

@[simp] theorem Base.ofBits_toBits (b : Base) : Base.ofBits b.toBits = b := by cases b <;> rfl

@[simp] theorem Reg16.toBits_ofBits : ∀ n : BitVec 3, (Reg16.ofBits n).toBits = n := by decide

@[simp] theorem Reg8.toBits_ofBits : ∀ n : BitVec 3, (Reg8.ofBits n).toBits = n := by decide

@[simp] theorem Base.toBits_ofBits : ∀ n : BitVec 3, (Base.ofBits n).toBits = n := by decide

theorem Base.toBits_eq_six_iff (b : Base) : b.toBits = 6#3 ↔ b = .bp := by cases b <;> decide

@[simp] theorem RM.map_map {ρ σ τ : Type} (f : ρ → σ) (g : σ → τ) (e : RM ρ) : (e.map f).map g = e.map (g ∘ f) := by
  cases e <;> rfl

@[simp] theorem RM.wellFormed_map {ρ σ : Type} (f : ρ → σ) (e : RM ρ) : (e.map f).wellFormed = e.wellFormed := by
  cases e <;> rfl

theorem RM.map_of_leftInverse {ρ σ : Type} {f : ρ → σ} {g : σ → ρ} (h : ∀ r, g (f r) = r) (e : RM ρ) :
    (e.map f).map g = e := by
  cases e
  case reg r => exact congrArg RM.reg (h r)
  case mem m => rfl

/-! ### The ModRM byte (R95 to R98) -/

theorem toNat_modrmByte (md : BitVec 2) (reg rm : BitVec 3) :
    (modrmByte md reg rm).toNat = md.toNat * 64 + reg.toNat * 8 + rm.toNat := by
  have hreg := reg.isLt
  have hrm := rm.isLt
  rw [modrmByte, BitVec.toNat_append, BitVec.toNat_append, ← Nat.shiftLeft_add_eq_or_of_lt hrm,
    ← Nat.shiftLeft_add_eq_or_of_lt hreg, Nat.shiftLeft_eq, Nat.shiftLeft_eq]
  omega

@[simp] theorem reg_modrmByte (md : BitVec 2) (reg rm : BitVec 3) : (modrmByte md reg rm).extractLsb' 3 3 = reg := by
  have hreg := reg.isLt
  have hrm := rm.isLt
  apply BitVec.eq_of_toNat_eq
  rw [BitVec.extractLsb'_toNat, toNat_modrmByte, Nat.shiftRight_eq_div_pow]
  omega

@[simp] theorem rm_modrmByte (md : BitVec 2) (reg rm : BitVec 3) : (modrmByte md reg rm).extractLsb' 0 3 = rm := by
  have hrm := rm.isLt
  apply BitVec.eq_of_toNat_eq
  rw [BitVec.extractLsb'_toNat, toNat_modrmByte, Nat.shiftRight_eq_div_pow]
  omega

@[simp] theorem modrmMod_modrmByte (md : BitVec 2) (reg rm : BitVec 3) :
    modrmMod (modrmByte md reg rm) = md.toNat := by
  have hreg := reg.isLt
  have hrm := rm.isLt
  rw [modrmMod, toNat_modrmByte]
  omega

@[simp] theorem modrmDigit_modrmByte (md : BitVec 2) (reg rm : BitVec 3) :
    modrmDigit (modrmByte md reg rm) = reg.toNat := by
  have hreg := reg.isLt
  have hrm := rm.isLt
  rw [modrmDigit, toNat_modrmByte]
  omega

/-- A byte is the ModRM byte of its three fields. -/
theorem eq_modrmByte (b : Byte) : b = modrmByte (b.extractLsb' 6 2) (b.extractLsb' 3 3) (b.extractLsb' 0 3) := by
  have hb := b.isLt
  apply BitVec.eq_of_toNat_eq
  rw [toNat_modrmByte, BitVec.extractLsb'_toNat, BitVec.extractLsb'_toNat, BitVec.extractLsb'_toNat,
    Nat.shiftRight_eq_div_pow, Nat.shiftRight_eq_div_pow, Nat.shiftRight_eq_div_pow]
  omega

theorem exists_modrmByte (b : Byte) : ∃ md reg rm, b = modrmByte md reg rm := ⟨_, _, _, eq_modrmByte b⟩

/-- The operand that was encoded is parsed, whatever follows it. -/
theorem parseModRM_encodeRM (reg : BitVec 3) {e : RM (BitVec 3)} (he : e.wellFormed = true) (rest : List Byte) :
    parseModRM (encodeRM reg e ++ rest) = some (reg, e, rest) := by
  rcases e with r | (b | w | ⟨b, d⟩ | ⟨b, w⟩)
  case reg => simp [encodeRM, parseModRM]
  case mem.base =>
    have hb : b ≠ .bp := fun h => by simp [h, RM.wellFormed, Mem.wellFormed] at he
    have hbits : b.toBits ≠ 6#3 := mt b.toBits_eq_six_iff.mp hb
    simp [encodeRM, encodeMem, parseModRM, hbits]
  case mem.direct => simp [encodeRM, encodeMem, parseModRM]
  case mem.disp8 => simp [encodeRM, encodeMem, parseModRM]
  case mem.disp16 => simp [encodeRM, encodeMem, parseModRM]

/-- What was parsed is well-formed, and the bytes are its encoding. -/
theorem parseModRM_eq_some {bs : List Byte} {reg : BitVec 3} {e : RM (BitVec 3)} {rest : List Byte}
    (h : parseModRM bs = some (reg, e, rest)) : e.wellFormed = true ∧ bs = encodeRM reg e ++ rest := by
  cases bs with
  | nil => simp [parseModRM] at h
  | cons b bs =>
    obtain ⟨md, r, m, rfl⟩ := exists_modrmByte b
    simp only [parseModRM, reg_modrmByte, rm_modrmByte, modrmMod_modrmByte] at h
    split at h
    case h_1 hmd =>
      obtain rfl : md = 0 := BitVec.eq_of_toNat_eq hmd
      split at h
      case isTrue hdirect =>
        split at h <;> cases h
        subst hdirect
        simp [RM.wellFormed, Mem.wellFormed, encodeRM, encodeMem]
      case isFalse hbase =>
        cases h
        have hb : Base.ofBits m ≠ .bp := by
          rw [Ne, ← Base.toBits_eq_six_iff, Base.toBits_ofBits]
          exact hbase
        simp [RM.wellFormed, Mem.wellFormed, encodeRM, encodeMem, hb]
    case h_2 hmd =>
      obtain rfl : md = 1 := BitVec.eq_of_toNat_eq hmd
      split at h <;> cases h
      simp [RM.wellFormed, Mem.wellFormed, encodeRM, encodeMem]
    case h_3 hmd =>
      obtain rfl : md = 2 := BitVec.eq_of_toNat_eq hmd
      split at h <;> cases h
      simp [RM.wellFormed, Mem.wellFormed, encodeRM, encodeMem]
    case h_4 h0 h1 h2 =>
      have hmd : md.toNat = 3 := by
        have hlt := md.isLt
        have h0 : md.toNat ≠ 0 := h0
        have h1 : md.toNat ≠ 1 := h1
        have h2 : md.toNat ≠ 2 := h2
        omega
      obtain rfl : md = 3 := BitVec.eq_of_toNat_eq hmd
      cases h
      simp [RM.wellFormed, encodeRM]

/-! ### Reading what was encoded -/

@[simp] theorem encodeWord_wordOf (lo hi : Byte) : encodeWord (wordOf lo hi) = [lo, hi] := by simp [encodeWord]

theorem withWord_encodeWord (k : Word → Instr) (w : Word) (rest : List Byte) :
    withWord k (encodeWord w ++ rest) = .ok (k w, rest) := by
  simp [encodeWord, withWord]

theorem withWordByte_encodeWord (k : Word → Byte → Instr) (w : Word) (b : Byte) (rest : List Byte) :
    withWordByte k ((encodeWord w ++ [b]) ++ rest) = .ok (k w b, rest) := by
  simp [encodeWord, withWordByte]

theorem withFarPointer_encodeWord (k : Word → Word → Instr) (off seg : Word) (rest : List Byte) :
    withFarPointer k ((encodeWord off ++ encodeWord seg) ++ rest) = .ok (k off seg, rest) := by
  simp [encodeWord, withFarPointer]

theorem withModRM_encodeRM (k : BitVec 3 → RM (BitVec 3) → Decoder) (reg : BitVec 3) {e : RM (BitVec 3)}
    (he : e.wellFormed = true) (rest : List Byte) : withModRM k (encodeRM reg e ++ rest) = k reg e rest := by
  rw [withModRM, parseModRM_encodeRM reg he]

theorem withModRM_encodeEb (k : BitVec 3 → RM (BitVec 3) → Decoder) (reg : BitVec 3) {e : RM Reg8}
    (he : e.wellFormed = true) (rest : List Byte) :
    withModRM k (encodeEb reg e ++ rest) = k reg (e.map Reg8.toBits) rest :=
  withModRM_encodeRM k reg (by rwa [RM.wellFormed_map]) rest

theorem withModRM_encodeEv (k : BitVec 3 → RM (BitVec 3) → Decoder) (reg : BitVec 3) {e : RM Reg16}
    (he : e.wellFormed = true) (rest : List Byte) :
    withModRM k (encodeEv reg e ++ rest) = k reg (e.map Reg16.toBits) rest :=
  withModRM_encodeRM k reg (by rwa [RM.wellFormed_map]) rest

theorem ebGb_encodeEb (k : RM Reg8 → Reg8 → Instr) {e : RM Reg8} (g : Reg8) (he : e.wellFormed = true)
    (rest : List Byte) : ebGb k (encodeEb g.toBits e ++ rest) = .ok (k e g, rest) := by
  rw [ebGb, withModRM_encodeEb _ _ he, RM.map_of_leftInverse Reg8.ofBits_toBits, Reg8.ofBits_toBits, noMore]

theorem evGv_encodeEv (k : RM Reg16 → Reg16 → Instr) {e : RM Reg16} (g : Reg16) (he : e.wellFormed = true)
    (rest : List Byte) : evGv k (encodeEv g.toBits e ++ rest) = .ok (k e g, rest) := by
  rw [evGv, withModRM_encodeEv _ _ he, RM.map_of_leftInverse Reg16.ofBits_toBits, Reg16.ofBits_toBits, noMore]

theorem evGvThen_encodeEv (k : RM Reg16 → Reg16 → Decoder) {e : RM Reg16} (g : Reg16) (he : e.wellFormed = true)
    (imm rest : List Byte) : evGvThen k ((encodeEv g.toBits e ++ imm) ++ rest) = k e g (imm ++ rest) := by
  rw [evGvThen, List.append_assoc, withModRM_encodeEv _ _ he, RM.map_of_leftInverse Reg16.ofBits_toBits,
    Reg16.ofBits_toBits]

theorem gvMem_encodeMem (op : Byte) (k : Reg16 → Mem → Instr) (g : Reg16) {m : Mem} (hm : m.wellFormed = true)
    (rest : List Byte) : gvMem op k (encodeMem g.toBits m ++ rest) = .ok (k g m, rest) := by
  rw [gvMem, show encodeMem g.toBits m = encodeRM g.toBits (.mem m) from rfl,
    withModRM_encodeRM _ _ (e := .mem m) hm]
  simp

theorem escOf_encodeEv (hi lo : BitVec 3) {e : RM Reg16} (he : e.wellFormed = true) (rest : List Byte) :
    escOf hi (encodeEv lo e ++ rest) = .ok (.esc (hi ++ lo) e, rest) := by
  rw [escOf, withModRM_encodeEv _ _ he, RM.map_of_leftInverse Reg16.ofBits_toBits, noMore]

/-- The first byte of an encoded operand is its ModRM byte. -/
theorem exists_encodeRM_eq (reg : BitVec 3) (e : RM (BitVec 3)) :
    ∃ md rm tail, encodeRM reg e = modrmByte md reg rm :: tail := by
  rcases e with r | (b | w | ⟨b, d⟩ | ⟨b, w⟩) <;> exact ⟨_, _, _, rfl⟩

/-- A group runs the member that its digit names (R106 to R110). -/
theorem group_encodeRM (op : Byte) {members : List (Option (RM (BitVec 3) → Decoder))} {digit : BitVec 3}
    {k : RM (BitVec 3) → Decoder} (hk : members.getD digit.toNat none = some k) {e : RM (BitVec 3)}
    (he : e.wellFormed = true) (rest : List Byte) : group op members (encodeRM digit e ++ rest) = k e rest := by
  have hparse := withModRM_encodeRM (fun _ e => k e) digit he rest
  obtain ⟨md, rm, tail, henc⟩ := exists_encodeRM_eq digit e
  rw [henc, List.cons_append] at hparse ⊢
  simp only [group, modrmDigit_modrmByte, hk]
  exact hparse

/-- A digit that names no member of a group is an unused encoding (R124). -/
theorem group_unused {d : Decoder} {op : Byte} {members : List (Option (RM (BitVec 3) → Decoder))} {m : Byte}
    {rest : List Byte} (hd : d (m :: rest) = group op members (m :: rest))
    (hm : members.getD (modrmDigit m) none = none) : d (m :: rest) = .ok (.unused (.group op m), rest) := by
  simp only [hd, group, hm, unusedGroup]

section Members

/- A group decoder `d` may look at the bytes it reads to build its members, as group 5 does: `hd` is about them. -/
variable {d : Decoder} {op : Byte} {members : List (Option (RM (BitVec 3) → Decoder))} {digit : BitVec 3}

theorem group_eb {k : RM Reg8 → Instr} {e : RM Reg8} {rest : List Byte}
    (hd : d (encodeEb digit e ++ rest) = group op members (encodeEb digit e ++ rest))
    (hk : members.getD digit.toNat none = eb k) (he : e.wellFormed = true) :
    d (encodeEb digit e ++ rest) = .ok (k e, rest) := by
  rw [hd, encodeEb, group_encodeRM op hk (by rwa [RM.wellFormed_map]), RM.map_of_leftInverse Reg8.ofBits_toBits, noMore]

theorem group_ev {k : RM Reg16 → Instr} {e : RM Reg16} {rest : List Byte}
    (hd : d (encodeEv digit e ++ rest) = group op members (encodeEv digit e ++ rest))
    (hk : members.getD digit.toNat none = ev k) (he : e.wellFormed = true) :
    d (encodeEv digit e ++ rest) = .ok (k e, rest) := by
  rw [hd, encodeEv, group_encodeRM op hk (by rwa [RM.wellFormed_map]), RM.map_of_leftInverse Reg16.ofBits_toBits,
    noMore]

theorem group_ebIb {k : RM Reg8 → Byte → Instr} {e : RM Reg8} {b : Byte} {rest : List Byte}
    (hd : d ((encodeEb digit e ++ [b]) ++ rest) = group op members ((encodeEb digit e ++ [b]) ++ rest))
    (hk : members.getD digit.toNat none = ebIb k) (he : e.wellFormed = true) :
    d ((encodeEb digit e ++ [b]) ++ rest) = .ok (k e b, rest) := by
  rw [hd, List.append_assoc, encodeEb, group_encodeRM op hk (by rwa [RM.wellFormed_map]),
    RM.map_of_leftInverse Reg8.ofBits_toBits, List.singleton_append, withByte]

theorem group_evIb {k : RM Reg16 → Byte → Instr} {e : RM Reg16} {b : Byte} {rest : List Byte}
    (hd : d ((encodeEv digit e ++ [b]) ++ rest) = group op members ((encodeEv digit e ++ [b]) ++ rest))
    (hk : members.getD digit.toNat none = evIb k) (he : e.wellFormed = true) :
    d ((encodeEv digit e ++ [b]) ++ rest) = .ok (k e b, rest) := by
  rw [hd, List.append_assoc, encodeEv, group_encodeRM op hk (by rwa [RM.wellFormed_map]),
    RM.map_of_leftInverse Reg16.ofBits_toBits, List.singleton_append, withByte]

theorem group_evIw {k : RM Reg16 → Word → Instr} {e : RM Reg16} {w : Word} {rest : List Byte}
    (hd : d ((encodeEv digit e ++ encodeWord w) ++ rest)
      = group op members ((encodeEv digit e ++ encodeWord w) ++ rest))
    (hk : members.getD digit.toNat none = evIw k) (he : e.wellFormed = true) :
    d ((encodeEv digit e ++ encodeWord w) ++ rest) = .ok (k e w, rest) := by
  rw [hd, List.append_assoc, encodeEv, group_encodeRM op hk (by rwa [RM.wellFormed_map]),
    RM.map_of_leftInverse Reg16.ofBits_toBits, withWord_encodeWord]

end Members

end Sys2Proof
end

section
/-! PROOF. Decoding what was encoded (30_encoding.md R94 to R112): O1, O2. -/

namespace Sys2Proof

/-- The eight values of a three-bit field. -/
theorem digit_cases : ∀ n : BitVec 3, n = 0 ∨ n = 1 ∨ n = 2 ∨ n = 3 ∨ n = 4 ∨ n = 5 ∨ n = 6 ∨ n = 7 := by decide

/-! ### The two-operand instructions -/

/-- The six opcodes of a two-operand instruction (R104). -/
theorem opcodeDecoder_aluSix (k : AluForm → Instr) (n : BitVec 3) (hk : aluByDigit[n.toNat]? = some k) :
    opcodeDecoder (opcodeWith (0#2 ++ n) 0) = ebGb (fun e g => k (.ebGb e g))
      ∧ opcodeDecoder (opcodeWith (0#2 ++ n) 1) = evGv (fun e g => k (.evGv e g))
      ∧ opcodeDecoder (opcodeWith (0#2 ++ n) 2) = ebGb (fun e g => k (.gbEb g e))
      ∧ opcodeDecoder (opcodeWith (0#2 ++ n) 3) = evGv (fun e g => k (.gvEv g e))
      ∧ opcodeDecoder (opcodeWith (0#2 ++ n) 4) = withByte (fun b => k (.alIb b))
      ∧ opcodeDecoder (opcodeWith (0#2 ++ n) 5) = withWord (fun w => k (.axIw w)) := by
  obtain rfl | rfl | rfl | rfl | rfl | rfl | rfl | rfl := digit_cases n
  all_goals
    cases hk
    exact ⟨rfl, rfl, rfl, rfl, rfl, rfl⟩

theorem decodeItem_encodeAlu (k : AluForm → Instr) (n : BitVec 3) (hk : aluByDigit[n.toNat]? = some k) (f : AluForm)
    (hf : f.wellFormed = true) (rest : List Byte) : decodeItem (encodeAlu n f ++ rest) = .ok (k f, rest) := by
  obtain ⟨h0, h1, h2, h3, h4, h5⟩ := opcodeDecoder_aluSix k n hk
  cases f
  case ebGb e g => exact (congrFun h0 _).trans (ebGb_encodeEb (fun e g => k (.ebGb e g)) g hf rest)
  case evGv e g => exact (congrFun h1 _).trans (evGv_encodeEv (fun e g => k (.evGv e g)) g hf rest)
  case gbEb g e => exact (congrFun h2 _).trans (ebGb_encodeEb (fun e g => k (.gbEb g e)) g hf rest)
  case gvEv g e => exact (congrFun h3 _).trans (evGv_encodeEv (fun e g => k (.gvEv g e)) g hf rest)
  case alIb b => exact congrFun h4 _
  case axIw w => exact (congrFun h5 _).trans (withWord_encodeWord (fun w => k (.axIw w)) w rest)
  case ebIb opc82 e b =>
    have hm : (aluByDigit.map fun k => ebIb fun e i => k (.ebIb opc82 e i)).getD n.toNat none
        = ebIb fun e i => k (.ebIb opc82 e i) := by simp [List.getD_eq_getElem?_getD, hk]
    cases opc82
    case false => exact group_ebIb (d := grp1Eb 0x80 false) rfl hm hf
    case true => exact group_ebIb (d := grp1Eb 0x82 true) rfl hm hf
  case evIw e w =>
    have hm : (aluByDigit.map fun k => evIw fun e i => k (.evIw e i)).getD n.toNat none
        = evIw fun e i => k (.evIw e i) := by simp [List.getD_eq_getElem?_getD, hk]
    exact group_evIw (d := grp1Iw) rfl hm hf
  case evIs e b =>
    have hm : (aluByDigit.map fun k => evIb fun e i => k (.evIs e i)).getD n.toNat none
        = evIb fun e i => k (.evIs e i) := by simp [List.getD_eq_getElem?_getD, hk]
    exact group_evIb (d := grp1Is) rfl hm hf

/-! ### The shifts and rotates -/

theorem decodeItem_encodeShift (k : RmForm → Count → Instr) (n : BitVec 3)
    (hk : shiftByDigit[n.toNat]? = some (some k)) (f : RmForm) (hf : f.wellFormed = true) (c : Count)
    (rest : List Byte) : decodeItem (encodeShift n f c ++ rest) = .ok (k f c, rest) := by
  have hm : ∀ F : (RmForm → Count → Instr) → Option (RM (BitVec 3) → Decoder),
      (shiftByDigit.map fun o => o.bind F).getD n.toNat none = F k := by
    intro F
    simp [List.getD_eq_getElem?_getD, hk]
  cases f
  case eb e =>
    cases c
    case one => exact group_eb (d := grp2Eb 0xD0 .one) rfl (hm fun k => eb fun e => k (.eb e) .one) hf
    case cl => exact group_eb (d := grp2Eb 0xD2 .cl) rfl (hm fun k => eb fun e => k (.eb e) .cl) hf
    case imm b => exact group_ebIb (d := grp2EbIb) rfl (hm fun k => ebIb fun e n => k (.eb e) (.imm n)) hf
  case ev e =>
    cases c
    case one => exact group_ev (d := grp2Ev 0xD1 .one) rfl (hm fun k => ev fun e => k (.ev e) .one) hf
    case cl => exact group_ev (d := grp2Ev 0xD3 .cl) rfl (hm fun k => ev fun e => k (.ev e) .cl) hf
    case imm b => exact group_evIb (d := grp2EvIb) rfl (hm fun k => evIb fun e n => k (.ev e) (.imm n)) hf

/-! ### The other instructions with several forms -/

theorem decodeItem_encodeMov (f : MovForm) (hf : f.wellFormed = true) (rest : List Byte) :
    decodeItem (encodeMov f ++ rest) = .ok (.mov f, rest) := by
  cases f
  case ebGb e g => exact ebGb_encodeEb (fun e g => .mov (.ebGb e g)) g hf rest
  case evGv e g => exact evGv_encodeEv (fun e g => .mov (.evGv e g)) g hf rest
  case gbEb g e => exact ebGb_encodeEb (fun e g => .mov (.gbEb g e)) g hf rest
  case gvEv g e => exact evGv_encodeEv (fun e g => .mov (.gvEv g e)) g hf rest
  case alOb a => exact withWord_encodeWord (fun a => .mov (.alOb a)) a rest
  case axOv a => exact withWord_encodeWord (fun a => .mov (.axOv a)) a rest
  case obAl a => exact withWord_encodeWord (fun a => .mov (.obAl a)) a rest
  case ovAx a => exact withWord_encodeWord (fun a => .mov (.ovAx a)) a rest
  case gbIb g b => cases g <;> rfl
  case gvIw g w => cases g <;> exact withWord_encodeWord (fun w => .mov (.gvIw _ w)) w rest
  case ebIb e b => exact group_ebIb (d := opcodeDecoder 0xC6) (k := fun e b => .mov (.ebIb e b)) (digit := 0) rfl rfl hf
  case evIw e w => exact group_evIw (d := opcodeDecoder 0xC7) (k := fun e w => .mov (.evIw e w)) (digit := 0) rfl rfl hf

theorem decodeItem_encodeTest (f : TestForm) (hf : f.wellFormed = true) (rest : List Byte) :
    decodeItem (encodeTest f ++ rest) = .ok (.test f, rest) := by
  cases f
  case ebGb e g => exact ebGb_encodeEb (fun e g => .test (.ebGb e g)) g hf rest
  case evGv e g => exact evGv_encodeEv (fun e g => .test (.evGv e g)) g hf rest
  case alIb b => rfl
  case axIw w => exact withWord_encodeWord (fun w => .test (.axIw w)) w rest
  case ebIb e b => exact group_ebIb (d := grp3Eb) (k := fun e b => .test (.ebIb e b)) (digit := 0) rfl rfl hf
  case evIw e w => exact group_evIw (d := grp3Ev) (k := fun e w => .test (.evIw e w)) (digit := 0) rfl rfl hf

theorem decodeItem_encodeXchg (f : XchgForm) (hf : f.wellFormed = true) (rest : List Byte) :
    decodeItem (encode (.xchg f) ++ rest) = .ok (.xchg f, rest) := by
  cases f
  case ebGb e g => exact ebGb_encodeEb (fun e g => .xchg (.ebGb e g)) g hf rest
  case evGv e g => exact evGv_encodeEv (fun e g => .xchg (.evGv e g)) g hf rest
  case axReg r =>
    cases r
    case ax => contradiction
    all_goals rfl

/-- A member of group 3, which has the same digit on both widths (R108). -/
theorem decodeItem_encodeGroup3 (k : RmForm → Instr) (digit : BitVec 3)
    {m8 m16 : List (Option (RM (BitVec 3) → Decoder))} (h8 : grp3Eb = group 0xF6 m8) (h16 : grp3Ev = group 0xF7 m16)
    (hk8 : m8.getD digit.toNat none = eb fun e => k (.eb e))
    (hk16 : m16.getD digit.toNat none = ev fun e => k (.ev e)) (f : RmForm) (hf : f.wellFormed = true)
    (rest : List Byte) : decodeItem (encodeRmForm 0xF6 digit f ++ rest) = .ok (k f, rest) := by
  cases f
  case eb e => exact group_eb (congrFun h8 _) hk8 hf
  case ev e => exact group_ev (congrFun h16 _) hk16 hf

/-- INC and DEC: the same digit in their register rows, in group 4 and in group 5 (R109). -/
theorem decodeItem_encodeInc (k : IncForm → Instr) (digit : BitVec 3)
    (hk : k = .inc ∧ digit = 0 ∨ k = .dec ∧ digit = 1) (f : IncForm) (hf : f.wellFormed = true) (rest : List Byte) :
    decodeItem (encodeInc digit f ++ rest) = .ok (k f, rest) := by
  cases f
  case reg r => obtain ⟨rfl, rfl⟩ | ⟨rfl, rfl⟩ := hk <;> cases r <;> rfl
  case eb e =>
    have hm : [eb fun e => .inc (.eb e), eb fun e => .dec (.eb e)].getD digit.toNat none = eb fun e => k (.eb e) := by
      obtain ⟨rfl, rfl⟩ | ⟨rfl, rfl⟩ := hk <;> rfl
    exact group_eb (d := grp4) rfl hm hf
  case ev e =>
    obtain ⟨rfl, rfl⟩ | ⟨rfl, rfl⟩ := hk
    case inl => exact group_ev (d := grp5) (k := fun e => .inc (.ev e)) rfl rfl hf
    case inr => exact group_ev (d := grp5) (k := fun e => .dec (.ev e)) rfl rfl hf

/-- A far indirect member of group 5: its operand is in memory (R109). -/
theorem decodeItem_encodeFarMem (k : Mem → Instr) (digit : BitVec 3)
    {members : List Byte → List (Option (RM (BitVec 3) → Decoder))} (h : grp5 = fun bs => group 0xFF (members bs) bs)
    (hk : ∀ bs, (members bs).getD digit.toNat none = farMem 0xFF k bs) {m : Mem} (hm : m.wellFormed = true)
    (rest : List Byte) : decodeItem (0xFF :: encodeMem digit m ++ rest) = .ok (k m, rest) := by
  have hgroup := group_encodeRM (e := .mem m) 0xFF (hk (encodeMem digit m ++ rest)) hm rest
  exact (congrFun h _).trans hgroup

/-- The external opcode is the three low bits of the opcode byte, then the `reg` field (R111). -/
theorem decodeItem_encode_esc (op : BitVec 6) {e : RM Reg16} (he : e.wellFormed = true) (rest : List Byte) :
    decodeItem (encode (.esc op e) ++ rest) = .ok (.esc op e, rest) := by
  have hrow : ∀ hi : BitVec 3, opcodeDecoder (opcodeWith 0b11011 hi) = escOf hi := by
    intro hi
    obtain rfl | rfl | rfl | rfl | rfl | rfl | rfl | rfl := digit_cases hi <;> rfl
  have hop : op.extractLsb' 3 3 ++ op.extractLsb' 0 3 = op := by
    rw [BitVec.extractLsb'_append_extractLsb'_eq_extractLsb' (by decide)]
    exact BitVec.extractLsb'_eq_self
  calc decodeItem (encode (.esc op e) ++ rest)
      = escOf (op.extractLsb' 3 3) (encodeEv (op.extractLsb' 0 3) e ++ rest) := congrFun (hrow _) _
    _ = .ok (.esc (op.extractLsb' 3 3 ++ op.extractLsb' 0 3) e, rest) := escOf_encodeEv _ _ he rest
    _ = .ok (.esc op e, rest) := by rw [hop]

/-! ### The unused encodings (R124) -/

theorem gvMem_unused (op : Byte) (k : Reg16 → Mem → Instr) {m : Byte} (hm : modrmMod m = 3) (rest : List Byte) :
    gvMem op k (m :: rest) = .ok (.unused (.group op m), rest) := by
  simp [gvMem, withModRM, parseModRM, hm, unusedGroup]

/-- A far indirect digit of group 5 with mod = 11 (R109). -/
theorem grp5_unused_farMem {m : Byte} (hdigit : modrmDigit m = 3 ∨ modrmDigit m = 5) (hm : modrmMod m = 3)
    (rest : List Byte) : grp5 (m :: rest) = .ok (.unused (.group 0xFF m), rest) := by
  obtain h | h := hdigit <;> simp [grp5, group, h, farMem, withModRM, parseModRM, hm, unusedGroup]

theorem decodeItem_encode_unused (u : Unused) (hu : u.wellFormed = true) (rest : List Byte) :
    decodeItem (encode (.unused u) ++ rest) = .ok (.unused u, rest) := by
  cases u
  case opcode b =>
    simp only [Unused.wellFormed, List.contains_iff_mem, List.mem_cons, List.not_mem_nil, or_false] at hu
    obtain rfl | rfl | rfl | rfl | rfl | rfl | rfl | rfl := hu <;> rfl
  case group b m =>
    simp only [Unused.wellFormed, List.contains_iff_mem, List.mem_cons, List.not_mem_nil, or_false, Bool.or_eq_true,
      Bool.and_eq_true, beq_iff_eq, bne_iff_ne, decide_eq_true_eq] at hu
    obtain (((((((⟨hb, hm⟩ | ⟨hb, hm⟩) | ⟨rfl, hm⟩) | ⟨rfl, hm⟩) | ⟨hb, hm⟩) | ⟨rfl, hm⟩) | ⟨rfl, hm⟩) | ⟨hb, hm⟩) := hu
    · obtain rfl | rfl | rfl | rfl | rfl | rfl := hb
      exacts [group_unused (d := grp2EbIb) rfl (by rw [hm]; rfl), group_unused (d := grp2EvIb) rfl (by rw [hm]; rfl),
        group_unused (d := grp2Eb 0xD0 .one) rfl (by rw [hm]; rfl),
        group_unused (d := grp2Ev 0xD1 .one) rfl (by rw [hm]; rfl),
        group_unused (d := grp2Eb 0xD2 .cl) rfl (by rw [hm]; rfl),
        group_unused (d := grp2Ev 0xD3 .cl) rfl (by rw [hm]; rfl)]
    · obtain rfl | rfl := hb
      exacts [group_unused (d := grp3Eb) rfl (by rw [hm]; rfl), group_unused (d := grp3Ev) rfl (by rw [hm]; rfl)]
    · exact group_unused (d := grp4) rfl (List.getD_eq_default _ _ hm)
    · obtain hm | ⟨hmod, hm⟩ := hm
      exacts [group_unused (d := grp5) rfl (by rw [hm]; rfl), grp5_unused_farMem hm hmod rest]
    · have hdefault : 1 ≤ modrmDigit m := Nat.one_le_iff_ne_zero.mpr hm
      obtain rfl | rfl | rfl := hb
      exacts [group_unused (d := opcodeDecoder 0x8F) rfl (List.getD_eq_default _ _ hdefault),
        group_unused (d := opcodeDecoder 0xC6) rfl (List.getD_eq_default _ _ hdefault),
        group_unused (d := opcodeDecoder 0xC7) rfl (List.getD_eq_default _ _ hdefault)]
    · exact group_unused (d := grp8C) rfl (List.getD_eq_default _ _ hm)
    · obtain hm | hm := hm
      exacts [group_unused (d := grp8E) rfl (by rw [hm]; rfl),
        group_unused (d := grp8E) rfl (List.getD_eq_default _ _ hm)]
    · obtain rfl | rfl | rfl | rfl := hb
      exacts [gvMem_unused 0x8D .lea hm rest, gvMem_unused 0xC4 .les hm rest, gvMem_unused 0xC5 .lds hm rest,
        gvMem_unused 0x62 .bound hm rest]

/-! ### Every item -/

/-- Settles O2, constructor by constructor: the opcode selects the decoder of the encoding's own shape. -/
theorem decodeOfEncodeIsTheInstruction : Obligations.DecodeOfEncodeIsTheInstruction := by
  intro i rest hi
  cases i
  case mov f => exact decodeItem_encodeMov f hi rest
  case movFromSeg e r =>
    cases r
    case es => exact group_ev (d := grp8C) (k := fun e => .movFromSeg e .es) (digit := 0) rfl rfl hi
    case cs => exact group_ev (d := grp8C) (k := fun e => .movFromSeg e .cs) (digit := 1) rfl rfl hi
    case ss => exact group_ev (d := grp8C) (k := fun e => .movFromSeg e .ss) (digit := 2) rfl rfl hi
    case ds => exact group_ev (d := grp8C) (k := fun e => .movFromSeg e .ds) (digit := 3) rfl rfl hi
  case movToSeg r e =>
    cases r
    case es => exact group_ev (d := grp8E) (k := fun e => .movToSeg .es e) (digit := 0) rfl rfl hi
    case ss => exact group_ev (d := grp8E) (k := fun e => .movToSeg .ss e) (digit := 2) rfl rfl hi
    case ds => exact group_ev (d := grp8E) (k := fun e => .movToSeg .ds e) (digit := 3) rfl rfl hi
  case pushReg r => cases r <;> rfl
  case pushRm e => exact group_ev (d := grp5) (k := .pushRm) (digit := 6) rfl rfl hi
  case pushSeg r => cases r <;> rfl
  case pushImm f =>
    cases f
    case iw w => exact withWord_encodeWord (fun w => .pushImm (.iw w)) w rest
    case is b => rfl
  case popReg r => cases r <;> rfl
  case popRm e => exact group_ev (d := opcodeDecoder 0x8F) (k := .popRm) (digit := 0) rfl rfl hi
  case popSeg r => cases r <;> rfl
  case xchg f => exact decodeItem_encodeXchg f hi rest
  case inAcc f => cases f <;> rfl
  case outAcc f => cases f <;> rfl
  case lea g m => exact gvMem_encodeMem 0x8D .lea g hi rest
  case lds g m => exact gvMem_encodeMem 0xC5 .lds g hi rest
  case les g m => exact gvMem_encodeMem 0xC4 .les g hi rest
  case add f => exact decodeItem_encodeAlu .add 0 rfl f hi rest
  case adc f => exact decodeItem_encodeAlu .adc 2 rfl f hi rest
  case sub f => exact decodeItem_encodeAlu .sub 5 rfl f hi rest
  case sbb f => exact decodeItem_encodeAlu .sbb 3 rfl f hi rest
  case cmp f => exact decodeItem_encodeAlu .cmp 7 rfl f hi rest
  case and f => exact decodeItem_encodeAlu .and 4 rfl f hi rest
  case or f => exact decodeItem_encodeAlu .or 1 rfl f hi rest
  case xor f => exact decodeItem_encodeAlu .xor 6 rfl f hi rest
  case inc f => exact decodeItem_encodeInc .inc 0 (.inl ⟨rfl, rfl⟩) f hi rest
  case dec f => exact decodeItem_encodeInc .dec 1 (.inr ⟨rfl, rfl⟩) f hi rest
  case not f => exact decodeItem_encodeGroup3 .not 2 rfl rfl rfl rfl f hi rest
  case neg f => exact decodeItem_encodeGroup3 .neg 3 rfl rfl rfl rfl f hi rest
  case mul f => exact decodeItem_encodeGroup3 .mul 4 rfl rfl rfl rfl f hi rest
  case imul f => exact decodeItem_encodeGroup3 .imul 5 rfl rfl rfl rfl f hi rest
  case div f => exact decodeItem_encodeGroup3 .div 6 rfl rfl rfl rfl f hi rest
  case idiv f => exact decodeItem_encodeGroup3 .idiv 7 rfl rfl rfl rfl f hi rest
  case imulImm g e f =>
    cases f
    case iw w =>
      exact (evGvThen_encodeEv (fun e g => withWord fun w => .imulImm g e (.iw w)) g hi _ rest).trans
        (withWord_encodeWord (fun w => .imulImm g e (.iw w)) w rest)
    case is b => exact evGvThen_encodeEv (fun e g => withByte fun b => .imulImm g e (.is b)) g hi _ rest
  case test f => exact decodeItem_encodeTest f hi rest
  case shl f c => exact decodeItem_encodeShift .shl 4 rfl f hi c rest
  case shr f c => exact decodeItem_encodeShift .shr 5 rfl f hi c rest
  case sar f c => exact decodeItem_encodeShift .sar 7 rfl f hi c rest
  case rol f c => exact decodeItem_encodeShift .rol 0 rfl f hi c rest
  case ror f c => exact decodeItem_encodeShift .ror 1 rfl f hi c rest
  case rcl f c => exact decodeItem_encodeShift .rcl 2 rfl f hi c rest
  case rcr f c => exact decodeItem_encodeShift .rcr 3 rfl f hi c rest
  case callNear rel => exact withWord_encodeWord .callNear rel rest
  case callInd e => exact group_ev (d := grp5) (k := .callInd) (digit := 2) rfl rfl hi
  case callFar off seg => exact withFarPointer_encodeWord .callFar off seg rest
  case callFarInd m => exact decodeItem_encodeFarMem .callFarInd 3 rfl (fun _ => rfl) hi rest
  case retNear p =>
    cases p
    case none => rfl
    case some w => exact withWord_encodeWord (fun w => .retNear (some w)) w rest
  case retFar p =>
    cases p
    case none => rfl
    case some w => exact withWord_encodeWord (fun w => .retFar (some w)) w rest
  case jmpNear rel => exact withWord_encodeWord .jmpNear rel rest
  case jmpInd e => exact group_ev (d := grp5) (k := .jmpInd) (digit := 4) rfl rfl hi
  case jmpFar off seg => exact withFarPointer_encodeWord .jmpFar off seg rest
  case jmpFarInd m => exact decodeItem_encodeFarMem .jmpFarInd 5 rfl (fun _ => rfl) hi rest
  case bound g m => exact gvMem_encodeMem 0x62 .bound g hi rest
  case enter locals level => exact withWordByte_encodeWord .enter locals level rest
  case esc op e => exact decodeItem_encode_esc op hi rest
  case unused u => exact decodeItem_encode_unused u hi rest
  all_goals rfl

end Sys2Proof
end

section
/-! PROOF. What a decoded item says of the bytes it was read from (30_encoding.md R94 to R124): O3. -/

namespace Sys2Proof

/-- What the decoder `d` reads after the bytes `pre` is well-formed, and its encoding is `pre` and what `d` took. -/
def ReadsOnly (pre : List Byte) (d : Decoder) : Prop :=
  ∀ bs i rest, d bs = .ok (i, rest) → i.wellFormed = true ∧ pre ++ bs = encode i ++ rest

/-! ### The decoders of the fields -/

theorem ReadsOnly.noMore {pre : List Byte} {i : Instr} (hw : i.wellFormed = true) (he : encode i = pre) :
    ReadsOnly pre (noMore i) := by
  rintro bs _ _ ⟨⟩
  exact ⟨hw, by rw [he]⟩

theorem ReadsOnly.withByte {pre : List Byte} {k : Byte → Instr} (hw : ∀ b, (k b).wellFormed = true)
    (he : ∀ b, encode (k b) = pre ++ [b]) : ReadsOnly pre (withByte k) := by
  intro bs i rest h
  match bs, h with
  | b :: bs, h =>
    cases h
    exact ⟨hw b, by simp [he]⟩

theorem ReadsOnly.withWord {pre : List Byte} {k : Word → Instr} (hw : ∀ w, (k w).wellFormed = true)
    (he : ∀ w, encode (k w) = pre ++ encodeWord w) : ReadsOnly pre (withWord k) := by
  intro bs i rest h
  match bs, h with
  | lo :: hi :: bs, h =>
    cases h
    exact ⟨hw _, by simp [he]⟩

theorem ReadsOnly.withWordByte {pre : List Byte} {k : Word → Byte → Instr} (hw : ∀ w b, (k w b).wellFormed = true)
    (he : ∀ w b, encode (k w b) = pre ++ (encodeWord w ++ [b])) : ReadsOnly pre (withWordByte k) := by
  intro bs i rest h
  match bs, h with
  | lo :: hi :: b :: bs, h =>
    cases h
    exact ⟨hw _ _, by simp [he]⟩

theorem ReadsOnly.withFarPointer {pre : List Byte} {k : Word → Word → Instr} (hw : ∀ o s, (k o s).wellFormed = true)
    (he : ∀ o s, encode (k o s) = pre ++ (encodeWord o ++ encodeWord s)) : ReadsOnly pre (withFarPointer k) := by
  intro bs i rest h
  match bs, h with
  | o0 :: o1 :: s0 :: s1 :: bs, h =>
    cases h
    exact ⟨hw _ _, by simp [he]⟩

/-- A decoder that reads a ModRM byte and its displacement first. -/
theorem ReadsOnly.withModRM {pre : List Byte} {k : BitVec 3 → RM (BitVec 3) → Decoder}
    (hk : ∀ reg e, e.wellFormed = true → ReadsOnly (pre ++ encodeRM reg e) (k reg e)) :
    ReadsOnly pre (withModRM k) := by
  intro bs i rest h
  simp only [Sys2Proof.withModRM] at h
  split at h
  case h_1 reg e rest' hparse =>
    obtain ⟨he, rfl⟩ := parseModRM_eq_some hparse
    rw [← List.append_assoc]
    exact hk reg e he _ _ _ h
  case h_2 => contradiction

theorem encodeEb_ofBits (g : BitVec 3) (e : RM (BitVec 3)) :
    encodeEb (Reg8.ofBits g).toBits (e.map Reg8.ofBits) = encodeRM g e := by
  rw [encodeEb, Reg8.toBits_ofBits, RM.map_of_leftInverse Reg8.toBits_ofBits]

theorem encodeEv_ofBits (g : BitVec 3) (e : RM (BitVec 3)) :
    encodeEv (Reg16.ofBits g).toBits (e.map Reg16.ofBits) = encodeRM g e := by
  rw [encodeEv, Reg16.toBits_ofBits, RM.map_of_leftInverse Reg16.toBits_ofBits]

theorem ReadsOnly.ebGb {pre : List Byte} {k : RM Reg8 → Reg8 → Instr}
    (hw : ∀ e g, e.wellFormed = true → (k e g).wellFormed = true)
    (he : ∀ e g, encode (k e g) = pre ++ encodeEb g.toBits e) : ReadsOnly pre (ebGb k) :=
  .withModRM fun g e h => .noMore (hw _ _ (by rwa [RM.wellFormed_map])) (by rw [he, encodeEb_ofBits])

theorem ReadsOnly.evGv {pre : List Byte} {k : RM Reg16 → Reg16 → Instr}
    (hw : ∀ e g, e.wellFormed = true → (k e g).wellFormed = true)
    (he : ∀ e g, encode (k e g) = pre ++ encodeEv g.toBits e) : ReadsOnly pre (evGv k) :=
  .withModRM fun g e h => .noMore (hw _ _ (by rwa [RM.wellFormed_map])) (by rw [he, encodeEv_ofBits])

theorem ReadsOnly.evGvThen {pre : List Byte} {k : RM Reg16 → Reg16 → Decoder}
    (hk : ∀ e g, e.wellFormed = true → ReadsOnly (pre ++ encodeEv g.toBits e) (k e g)) :
    ReadsOnly pre (evGvThen k) :=
  .withModRM fun g e h => encodeEv_ofBits g e ▸ hk _ _ (by rwa [RM.wellFormed_map])

/-- Two three-bit fields are read back. -/
theorem extractLsb'_append_digits (hi lo : BitVec 3) :
    (hi ++ lo).extractLsb' 3 3 = hi ∧ (hi ++ lo).extractLsb' 0 3 = lo := by
  have hlo := lo.isLt
  have hsum : (hi ++ lo).toNat = hi.toNat * 8 + lo.toNat := by
    rw [BitVec.toNat_append, ← Nat.shiftLeft_add_eq_or_of_lt hlo, Nat.shiftLeft_eq]
  constructor
  all_goals
    apply BitVec.eq_of_toNat_eq
    rw [BitVec.extractLsb'_toNat, hsum, Nat.shiftRight_eq_div_pow]
    omega

theorem ReadsOnly.escOf (hi : BitVec 3) : ReadsOnly [opcodeWith 0b11011 hi] (escOf hi) := by
  refine .withModRM fun lo e h => .noMore ?_ ?_
  · exact (RM.wellFormed_map _ e).trans h
  · simp [encode, encodeEv, extractLsb'_append_digits, RM.map_of_leftInverse Reg16.toBits_ofBits]

theorem ReadsOnly.second0A {op : Byte} {i : Instr} (hw : i.wellFormed = true) (he : encode i = [op, 0x0A]) :
    ReadsOnly [op] (second0A i) := by
  intro bs j rest h
  match bs, h with
  | b :: bs, h =>
    simp only [Sys2Proof.second0A] at h
    split at h <;> cases h
    case isTrue hb => exact ⟨hw, by simp [he, hb]⟩

/-! ### The groups -/

theorem unusedGroup_eq_ok {op : Byte} {bs : List Byte} {i : Instr} {rest : List Byte}
    (h : unusedGroup op bs = .ok (i, rest)) : ∃ m, bs = m :: rest ∧ i = .unused (.group op m) := by
  match bs, h with
  | m :: bs, h =>
    cases h
    exact ⟨m, rfl, rfl⟩

/-- What a member of a group may read, where the group's bytes `bs` begin with a ModRM byte with its digit. -/
def MemberReadsOnly (op : Byte) (digit : BitVec 3) (bs : List Byte) : Option (RM (BitVec 3) → Decoder) → Prop
  | some k => ∀ e i rest' rest, parseModRM bs = some (digit, e, rest') → k e rest' = .ok (i, rest) →
      i.wellFormed = true ∧ op :: bs = encode i ++ rest
  | none => ∀ m, modrmDigit m = digit.toNat → (Unused.group op m).wellFormed = true

theorem MemberReadsOnly.of_readsOnly {op : Byte} {digit : BitVec 3} {bs : List Byte} {k : RM (BitVec 3) → Decoder}
    (hk : ∀ e, e.wellFormed = true → ReadsOnly (op :: encodeRM digit e) (k e)) :
    MemberReadsOnly op digit bs (some k) := by
  intro e i rest' rest hparse h
  obtain ⟨he, rfl⟩ := parseModRM_eq_some hparse
  exact hk e he _ _ _ h

/-- The `reg` field that is parsed is that of the first byte. -/
theorem digit_of_parseModRM {md : BitVec 2} {digit digit' rm : BitVec 3} {bs rest : List Byte} {e : RM (BitVec 3)}
    (h : parseModRM (modrmByte md digit rm :: bs) = some (digit', e, rest)) : digit' = digit := by
  obtain ⟨-, hbytes⟩ := parseModRM_eq_some h
  obtain ⟨md', rm', tail, henc⟩ := exists_encodeRM_eq digit' e
  rw [henc, List.cons_append, List.cons.injEq] at hbytes
  rw [← reg_modrmByte md' digit' rm', ← hbytes.1, reg_modrmByte]

theorem group_reads {op : Byte} {members : List (Option (RM (BitVec 3) → Decoder))} {bs : List Byte}
    (hm : ∀ digit : BitVec 3, MemberReadsOnly op digit bs (members.getD digit.toNat none)) {i : Instr}
    {rest : List Byte} (h : group op members bs = .ok (i, rest)) :
    i.wellFormed = true ∧ op :: bs = encode i ++ rest := by
  cases bs with
  | nil => simp [group] at h
  | cons m bs =>
    obtain ⟨md, digit, rm, rfl⟩ := exists_modrmByte m
    have hd := hm digit
    simp only [group, modrmDigit_modrmByte] at h
    split at h
    case h_1 k hk =>
      rw [hk] at hd
      simp only [withModRM] at h
      split at h
      case h_1 digit' e rest' hparse =>
        obtain rfl := digit_of_parseModRM hparse
        exact hd e i rest' rest hparse h
      case h_2 => contradiction
    case h_2 hk =>
      rw [hk] at hd
      obtain ⟨m, hbs, rfl⟩ := unusedGroup_eq_ok h
      cases hbs
      exact ⟨hd _ (modrmDigit_modrmByte _ _ _), rfl⟩

theorem MemberReadsOnly.eb {op : Byte} {digit : BitVec 3} {bs : List Byte} {k : RM Reg8 → Instr}
    (hw : ∀ e, e.wellFormed = true → (k e).wellFormed = true) (he : ∀ e, encode (k e) = op :: encodeEb digit e) :
    MemberReadsOnly op digit bs (eb k) :=
  .of_readsOnly fun e h => .noMore (hw _ (by rwa [RM.wellFormed_map]))
    (by rw [he, encodeEb, RM.map_of_leftInverse Reg8.toBits_ofBits])

theorem MemberReadsOnly.ev {op : Byte} {digit : BitVec 3} {bs : List Byte} {k : RM Reg16 → Instr}
    (hw : ∀ e, e.wellFormed = true → (k e).wellFormed = true) (he : ∀ e, encode (k e) = op :: encodeEv digit e) :
    MemberReadsOnly op digit bs (ev k) :=
  .of_readsOnly fun e h => .noMore (hw _ (by rwa [RM.wellFormed_map]))
    (by rw [he, encodeEv, RM.map_of_leftInverse Reg16.toBits_ofBits])

theorem MemberReadsOnly.ebIb {op : Byte} {digit : BitVec 3} {bs : List Byte} {k : RM Reg8 → Byte → Instr}
    (hw : ∀ e b, e.wellFormed = true → (k e b).wellFormed = true)
    (he : ∀ e b, encode (k e b) = op :: (encodeEb digit e ++ [b])) : MemberReadsOnly op digit bs (ebIb k) :=
  .of_readsOnly fun e h => .withByte (fun b => hw _ b (by rwa [RM.wellFormed_map]))
    (fun b => by rw [he, encodeEb, RM.map_of_leftInverse Reg8.toBits_ofBits, List.cons_append])

theorem MemberReadsOnly.evIb {op : Byte} {digit : BitVec 3} {bs : List Byte} {k : RM Reg16 → Byte → Instr}
    (hw : ∀ e b, e.wellFormed = true → (k e b).wellFormed = true)
    (he : ∀ e b, encode (k e b) = op :: (encodeEv digit e ++ [b])) : MemberReadsOnly op digit bs (evIb k) :=
  .of_readsOnly fun e h => .withByte (fun b => hw _ b (by rwa [RM.wellFormed_map]))
    (fun b => by rw [he, encodeEv, RM.map_of_leftInverse Reg16.toBits_ofBits, List.cons_append])

theorem MemberReadsOnly.evIw {op : Byte} {digit : BitVec 3} {bs : List Byte} {k : RM Reg16 → Word → Instr}
    (hw : ∀ e w, e.wellFormed = true → (k e w).wellFormed = true)
    (he : ∀ e w, encode (k e w) = op :: (encodeEv digit e ++ encodeWord w)) : MemberReadsOnly op digit bs (evIw k) :=
  .of_readsOnly fun e h => .withWord (fun w => hw _ w (by rwa [RM.wellFormed_map]))
    (fun w => by rw [he, encodeEv, RM.map_of_leftInverse Reg16.toBits_ofBits, List.cons_append])

/-- A register operand has mod = 11. -/
theorem modrmMod_of_parseModRM_reg {m : Byte} {bs rest : List Byte} {digit r : BitVec 3}
    (h : parseModRM (m :: bs) = some (digit, .reg r, rest)) : modrmMod m = 3 := by
  obtain ⟨-, hbytes⟩ := parseModRM_eq_some h
  rw [encodeRM, List.singleton_append, List.cons.injEq] at hbytes
  rw [hbytes.1, modrmMod_modrmByte]
  rfl

theorem MemberReadsOnly.farMem {op : Byte} {digit : BitVec 3} {bs : List Byte} {k : Mem → Instr}
    (hw : ∀ m, m.wellFormed = true → (k m).wellFormed = true) (he : ∀ m, encode (k m) = op :: encodeMem digit m)
    (hu : ∀ m, modrmDigit m = digit.toNat → modrmMod m = 3 → (Unused.group op m).wellFormed = true) :
    MemberReadsOnly op digit bs (farMem op k bs) := by
  intro e i rest' rest hparse h
  cases e
  case mem m =>
    cases h
    obtain ⟨hm, rfl⟩ := parseModRM_eq_some hparse
    exact ⟨hw m hm, by simp [he, encodeRM]⟩
  case reg r =>
    obtain ⟨b, rfl, rfl⟩ := unusedGroup_eq_ok h
    obtain ⟨md, d, rm, rfl⟩ := exists_modrmByte b
    have hmod := modrmMod_of_parseModRM_reg hparse
    obtain rfl := digit_of_parseModRM hparse
    exact ⟨hu _ (modrmDigit_modrmByte _ _ _) hmod, rfl⟩

theorem ReadsOnly.gvMem {op : Byte} {k : Reg16 → Mem → Instr}
    (hw : ∀ g m, m.wellFormed = true → (k g m).wellFormed = true)
    (he : ∀ g m, encode (k g m) = op :: encodeMem g.toBits m)
    (hu : ∀ m, modrmMod m = 3 → (Unused.group op m).wellFormed = true) : ReadsOnly [op] (gvMem op k) := by
  intro bs i rest h
  simp only [Sys2Proof.gvMem, Sys2Proof.withModRM] at h
  split at h
  case h_2 => contradiction
  case h_1 g e rest' hparse =>
    cases e
    case mem m =>
      cases h
      obtain ⟨hm, rfl⟩ := parseModRM_eq_some hparse
      exact ⟨hw _ m hm, by simp [he, encodeRM]⟩
    case reg r =>
      obtain ⟨b, rfl, rfl⟩ := unusedGroup_eq_ok h
      exact ⟨hu b (modrmMod_of_parseModRM_reg hparse), rfl⟩

/-- Every member of a group from the digit `n` on reads what it should; a digit past the last is an unused encoding. -/
def MembersReadOnly (op : Byte) (bs : List Byte) : Nat → List (Option (RM (BitVec 3) → Decoder)) → Prop
  | n, [] => ∀ m, n ≤ modrmDigit m → (Unused.group op m).wellFormed = true
  | n, o :: os => MemberReadsOnly op (BitVec.ofNat 3 n) bs o ∧ MembersReadOnly op bs (n + 1) os

theorem MembersReadOnly.getD {op : Byte} {bs : List Byte} {members : List (Option (RM (BitVec 3) → Decoder))}
    {n k : Nat}
    (h : MembersReadOnly op bs n members) (hk : n + k < 8) :
    MemberReadsOnly op (BitVec.ofNat 3 (n + k)) bs (members.getD k none) := by
  induction members generalizing n k with
  | nil =>
    intro m hm
    refine h m ?_
    rw [hm, BitVec.toNat_ofNat, Nat.mod_eq_of_lt hk]
    exact Nat.le_add_right n k
  | cons o os ih =>
    obtain ⟨ho, hos⟩ := h
    cases k with
    | zero => exact ho
    | succ k =>
      rw [Nat.add_succ, ← Nat.succ_add] at hk ⊢
      exact ih hos hk

theorem ReadsOnly.group {op : Byte} {members : List Byte → List (Option (RM (BitVec 3) → Decoder))}
    (hm : ∀ bs, MembersReadOnly op bs 0 (members bs)) : ReadsOnly [op] (fun bs => group op (members bs) bs) := by
  intro bs i rest h
  refine group_reads (fun digit => ?_) h
  have hd := (hm bs).getD (k := digit.toNat) (by have := digit.isLt; omega)
  rwa [Nat.zero_add, BitVec.ofNat_toNat, BitVec.setWidth_eq] at hd

end Sys2Proof
end

section
/-! PROOF. The opcode map, row by row: each decoder reads only its own encodings (30_encoding.md R105 to R124): O3. -/

namespace Sys2Proof

/-! ### Rows of the opcode map -/

/-- Every decoder of a row reads what it should after its opcode byte; the first stands at `n`. -/
def RowReadsOnly : Nat → List Decoder → Prop
  | _, [] => True
  | n, d :: ds => ReadsOnly [BitVec.ofNat 8 n] d ∧ RowReadsOnly (n + 1) ds

theorem RowReadsOnly.append {n : Nat} {as bs : List Decoder} (ha : RowReadsOnly n as)
    (hb : RowReadsOnly (n + as.length) bs) : RowReadsOnly n (as ++ bs) := by
  induction as generalizing n with
  | nil => exact hb
  | cons a as ih =>
    obtain ⟨hfirst, hothers⟩ := ha
    exact ⟨hfirst, ih hothers (by rwa [List.length_cons, Nat.add_comm as.length, ← Nat.add_assoc] at hb)⟩

theorem ReadsOnly.getD {n k : Nat} {ds : List Decoder} (h : RowReadsOnly n ds) :
    ReadsOnly [BitVec.ofNat 8 (n + k)] (ds.getD k fun _ => .error .truncated) := by
  induction ds generalizing n k with
  | nil => exact fun bs i rest h => by simp at h
  | cons d ds ih =>
    obtain ⟨hfirst, hothers⟩ := h
    cases k with
    | zero => exact hfirst
    | succ k =>
      rw [Nat.add_succ, ← Nat.succ_add]
      exact ih hothers

/-- The six opcodes of a two-operand instruction from `8 n` on (R104). -/
theorem aluSix_readsOnly (n : BitVec 3) {k : AluForm → Instr} (hw : ∀ f, (k f).wellFormed = f.wellFormed)
    (he : ∀ f, encode (k f) = encodeAlu n f) : RowReadsOnly (8 * n.toNat) (aluSix k) := by
  have hop : ∀ j : Nat, j < 8 → opcodeWith (0#2 ++ n) (BitVec.ofNat 3 j) = BitVec.ofNat 8 (8 * n.toNat + j) := by
    intro j hj
    apply BitVec.eq_of_toNat_eq
    have hn := n.isLt
    rw [Machine.toNat_opcodeWith, BitVec.toNat_append, BitVec.toNat_ofNat, BitVec.toNat_ofNat]
    simp
    omega
  refine ⟨.ebGb (fun e g h => (hw _).trans h) fun e g => ?_, .evGv (fun e g h => (hw _).trans h) fun e g => ?_,
    .ebGb (fun e g h => (hw _).trans h) fun e g => ?_, .evGv (fun e g h => (hw _).trans h) fun e g => ?_,
    .withByte (fun b => hw _) fun b => ?_, .withWord (fun w => hw _) fun w => ?_, trivial⟩
  · exact (he _).trans (congrArg (· :: _) (hop 0 (by decide)))
  · exact (he _).trans (congrArg (· :: _) (hop 1 (by decide)))
  · exact (he _).trans (congrArg (· :: _) (hop 2 (by decide)))
  · exact (he _).trans (congrArg (· :: _) (hop 3 (by decide)))
  · exact (he _).trans (congrArg (· :: _) (hop 4 (by decide)))
  · exact (he _).trans (congrArg (· :: _) (hop 5 (by decide)))

/-! ### The groups -/

theorem modrmDigit_lt (m : Byte) : modrmDigit m < 8 := Nat.mod_lt _ (by decide)

/-- A group with eight members has no digit past the last. -/
theorem membersReadOnly_eight (op : Byte) (bs : List Byte) : MembersReadOnly op bs 8 [] :=
  fun m hm => absurd hm (Nat.not_le_of_lt (modrmDigit_lt m))

theorem grp1Eb_readsOnly (op : Byte) (opc82 : Bool) (hop : op = if opc82 then 0x82 else 0x80) :
    ReadsOnly [op] (grp1Eb op opc82) := by
  subst hop
  refine .group fun bs => ⟨?_, ?_, ?_, ?_, ?_, ?_, ?_, ?_, membersReadOnly_eight _ bs⟩
  all_goals exact MemberReadsOnly.ebIb (fun _ _ h => h) fun _ _ => rfl

theorem grp1Iw_readsOnly : ReadsOnly [0x81] grp1Iw := by
  refine .group fun bs => ⟨?_, ?_, ?_, ?_, ?_, ?_, ?_, ?_, membersReadOnly_eight _ bs⟩
  all_goals exact MemberReadsOnly.evIw (fun _ _ h => h) fun _ _ => rfl

theorem grp1Is_readsOnly : ReadsOnly [0x83] grp1Is := by
  refine .group fun bs => ⟨?_, ?_, ?_, ?_, ?_, ?_, ?_, ?_, membersReadOnly_eight _ bs⟩
  all_goals exact MemberReadsOnly.evIb (fun _ _ h => h) fun _ _ => rfl

/-- `/6` of group 2 is unused in its six opcodes (R107, R124). -/
theorem unused_group2 {op m : Byte} (hop : op ∈ [0xC0#8, 0xC1#8, 0xD0#8, 0xD1#8, 0xD2#8, 0xD3#8])
    (hm : modrmDigit m = 6) : (Unused.group op m).wellFormed = true := by
  simp only [List.mem_cons, List.not_mem_nil, or_false] at hop
  simp [Unused.wellFormed, hop, hm]

/-- A digit of group 2 is `/6`, or a shift or rotate that has this digit in its encodings (R107). -/
theorem shiftByDigit_cases (digit : BitVec 3) :
    digit = 6 ∧ shiftByDigit[digit.toNat]? = some none
      ∨ ∃ k, shiftByDigit[digit.toNat]? = some (some k) ∧ (∀ f c, (k f c).wellFormed = f.wellFormed)
          ∧ ∀ f c, encode (k f c) = encodeShift digit f c := by
  obtain rfl | rfl | rfl | rfl | rfl | rfl | rfl | rfl := digit_cases digit
  case inr.inr.inr.inr.inr.inr.inl => exact .inl ⟨rfl, rfl⟩
  all_goals exact .inr ⟨_, rfl, fun _ _ => rfl, fun _ _ => rfl⟩

/-- An opcode of group 2, whose members `F` makes from the shifts and rotates. -/
theorem group2_readsOnly {op : Byte} (hop : op ∈ [0xC0#8, 0xC1#8, 0xD0#8, 0xD1#8, 0xD2#8, 0xD3#8])
    {F : (RmForm → Count → Instr) → Option (RM (BitVec 3) → Decoder)}
    (hF : ∀ digit bs k, (∀ f c, (k f c).wellFormed = f.wellFormed) → (∀ f c, encode (k f c) = encodeShift digit f c) →
      MemberReadsOnly op digit bs (F k)) : ReadsOnly [op] (group op (shiftByDigit.map fun o => o.bind F)) := by
  intro bs i rest h
  refine group_reads (fun digit => ?_) h
  rw [List.getD_eq_getElem?_getD, List.getElem?_map]
  obtain ⟨rfl, hnone⟩ | ⟨k, hk, hw, he⟩ := shiftByDigit_cases digit
  · rw [hnone]
    exact fun m hm => unused_group2 hop hm
  · rw [hk]
    exact hF digit bs k hw he

theorem grp2Eb_one_readsOnly : ReadsOnly [0xD0] (grp2Eb 0xD0 .one) :=
  group2_readsOnly (by decide) fun _ _ _ hw he => .eb (fun _ h => (hw _ _).trans h) fun _ => he _ _

theorem grp2Ev_one_readsOnly : ReadsOnly [0xD1] (grp2Ev 0xD1 .one) :=
  group2_readsOnly (by decide) fun _ _ _ hw he => .ev (fun _ h => (hw _ _).trans h) fun _ => he _ _

theorem grp2Eb_cl_readsOnly : ReadsOnly [0xD2] (grp2Eb 0xD2 .cl) :=
  group2_readsOnly (by decide) fun _ _ _ hw he => .eb (fun _ h => (hw _ _).trans h) fun _ => he _ _

theorem grp2Ev_cl_readsOnly : ReadsOnly [0xD3] (grp2Ev 0xD3 .cl) :=
  group2_readsOnly (by decide) fun _ _ _ hw he => .ev (fun _ h => (hw _ _).trans h) fun _ => he _ _

theorem grp2EbIb_readsOnly : ReadsOnly [0xC0] grp2EbIb :=
  group2_readsOnly (by decide) fun _ _ _ hw he => .ebIb (fun _ _ h => (hw _ _).trans h) fun _ _ => he _ _

theorem grp2EvIb_readsOnly : ReadsOnly [0xC1] grp2EvIb :=
  group2_readsOnly (by decide) fun _ _ _ hw he => .evIb (fun _ _ h => (hw _ _).trans h) fun _ _ => he _ _

theorem unused_group3 {op m : Byte} (hop : op ∈ [0xF6#8, 0xF7#8]) (hm : modrmDigit m = 1) :
    (Unused.group op m).wellFormed = true := by
  simp only [List.mem_cons, List.not_mem_nil, or_false] at hop
  simp [Unused.wellFormed, hop, hm]

theorem grp3Eb_readsOnly : ReadsOnly [0xF6] grp3Eb :=
  .group fun bs => ⟨.ebIb (fun _ _ h => h) fun _ _ => rfl, fun _ hm => unused_group3 (by decide) hm,
    .eb (fun _ h => h) fun _ => rfl, .eb (fun _ h => h) fun _ => rfl, .eb (fun _ h => h) fun _ => rfl,
    .eb (fun _ h => h) fun _ => rfl, .eb (fun _ h => h) fun _ => rfl, .eb (fun _ h => h) fun _ => rfl,
    membersReadOnly_eight _ bs⟩

theorem grp3Ev_readsOnly : ReadsOnly [0xF7] grp3Ev :=
  .group fun bs => ⟨.evIw (fun _ _ h => h) fun _ _ => rfl, fun _ hm => unused_group3 (by decide) hm,
    .ev (fun _ h => h) fun _ => rfl, .ev (fun _ h => h) fun _ => rfl, .ev (fun _ h => h) fun _ => rfl,
    .ev (fun _ h => h) fun _ => rfl, .ev (fun _ h => h) fun _ => rfl, .ev (fun _ h => h) fun _ => rfl,
    membersReadOnly_eight _ bs⟩

theorem grp4_readsOnly : ReadsOnly [0xFE] grp4 :=
  .group fun _ => ⟨.eb (fun _ h => h) fun _ => rfl, .eb (fun _ h => h) fun _ => rfl,
    fun _ hm => by simp [Unused.wellFormed, hm]⟩

theorem grp5_readsOnly : ReadsOnly [0xFF] grp5 := by
  have hfar : ∀ m, modrmDigit m = 3 ∨ modrmDigit m = 5 → modrmMod m = 3 → (Unused.group 0xFF m).wellFormed = true := by
    intro m hm hmod
    obtain h | h := hm <;> simp [Unused.wellFormed, h, hmod]
  exact .group fun bs => ⟨.ev (fun _ h => h) fun _ => rfl, .ev (fun _ h => h) fun _ => rfl,
    .ev (fun _ h => h) fun _ => rfl, .farMem (fun _ h => h) (fun _ => rfl) fun m hm => hfar m (.inl hm),
    .ev (fun _ h => h) fun _ => rfl, .farMem (fun _ h => h) (fun _ => rfl) fun m hm => hfar m (.inr hm),
    .ev (fun _ h => h) fun _ => rfl, fun m (hm : modrmDigit m = 7) => by simp [Unused.wellFormed, hm],
    membersReadOnly_eight _ bs⟩

theorem grp8C_readsOnly : ReadsOnly [0x8C] grp8C :=
  .group fun _ => ⟨.ev (fun _ h => h) fun _ => rfl, .ev (fun _ h => h) fun _ => rfl, .ev (fun _ h => h) fun _ => rfl,
    .ev (fun _ h => h) fun _ => rfl, fun _ hm => by simp [Unused.wellFormed, hm]⟩

theorem grp8E_readsOnly : ReadsOnly [0x8E] grp8E :=
  .group fun _ => ⟨.ev (fun _ h => h) fun _ => rfl, fun m (hm : modrmDigit m = 1) => by simp [Unused.wellFormed, hm],
    .ev (fun _ h => h) fun _ => rfl, .ev (fun _ h => h) fun _ => rfl, fun _ hm => by simp [Unused.wellFormed, hm]⟩

/-- The groups with the one member `/0` (R110, R124). -/
theorem unused_past_zero {op m : Byte} (hop : op ∈ [0x8F#8, 0xC6#8, 0xC7#8]) (hm : 1 ≤ modrmDigit m) :
    (Unused.group op m).wellFormed = true := by
  have hm0 : modrmDigit m ≠ 0 := by omega
  simp only [List.mem_cons, List.not_mem_nil, or_false] at hop
  simp [Unused.wellFormed, hop, hm0]

/-- mod = 11 where the operand must be in memory (R110, R124). -/
theorem unused_register {op m : Byte} (hop : op ∈ [0x8D#8, 0xC4#8, 0xC5#8, 0x62#8]) (hm : modrmMod m = 3) :
    (Unused.group op m).wellFormed = true := by
  simp only [List.mem_cons, List.not_mem_nil, or_false] at hop
  simp [Unused.wellFormed, hop, hm]

/-! ### The sixteen rows -/

theorem reg16Row_readsOnly {n : Nat} {k : Reg16 → Instr} (hw : ∀ r, (k r).wellFormed = true)
    (he : ∀ r, encode (k r) = [BitVec.ofNat 8 (n + r.toBits.toNat)]) : RowReadsOnly n (reg16Row k) :=
  ⟨.noMore (hw _) (he _), .noMore (hw _) (he _), .noMore (hw _) (he _), .noMore (hw _) (he _), .noMore (hw _) (he _),
    .noMore (hw _) (he _), .noMore (hw _) (he _), .noMore (hw _) (he _), trivial⟩

theorem row0_readsOnly : RowReadsOnly 0x00 row0 :=
  .append (.append (.append (aluSix_readsOnly 0 (k := .add) (fun _ => rfl) fun _ => rfl)
    ⟨.noMore rfl rfl, .noMore rfl rfl, trivial⟩) (aluSix_readsOnly 1 (k := .or) (fun _ => rfl) fun _ => rfl))
    ⟨.noMore rfl rfl, .noMore rfl rfl, trivial⟩

theorem row1_readsOnly : RowReadsOnly 0x10 row1 :=
  .append (.append (.append (aluSix_readsOnly 2 (k := .adc) (fun _ => rfl) fun _ => rfl)
    ⟨.noMore rfl rfl, .noMore rfl rfl, trivial⟩) (aluSix_readsOnly 3 (k := .sbb) (fun _ => rfl) fun _ => rfl))
    ⟨.noMore rfl rfl, .noMore rfl rfl, trivial⟩

theorem row2_readsOnly : RowReadsOnly 0x20 row2 :=
  .append (.append (.append (aluSix_readsOnly 4 (k := .and) (fun _ => rfl) fun _ => rfl)
    ⟨.noMore rfl rfl, .noMore rfl rfl, trivial⟩) (aluSix_readsOnly 5 (k := .sub) (fun _ => rfl) fun _ => rfl))
    ⟨.noMore rfl rfl, .noMore rfl rfl, trivial⟩

theorem row3_readsOnly : RowReadsOnly 0x30 row3 :=
  .append (.append (.append (aluSix_readsOnly 6 (k := .xor) (fun _ => rfl) fun _ => rfl)
    ⟨.noMore rfl rfl, .noMore rfl rfl, trivial⟩) (aluSix_readsOnly 7 (k := .cmp) (fun _ => rfl) fun _ => rfl))
    ⟨.noMore rfl rfl, .noMore rfl rfl, trivial⟩

theorem row4_readsOnly : RowReadsOnly 0x40 row4 :=
  .append (reg16Row_readsOnly (fun _ => rfl) fun r => by cases r <;> rfl)
    (reg16Row_readsOnly (fun _ => rfl) fun r => by cases r <;> rfl)

theorem row5_readsOnly : RowReadsOnly 0x50 row5 :=
  .append (reg16Row_readsOnly (fun _ => rfl) fun r => by cases r <;> rfl)
    (reg16Row_readsOnly (fun _ => rfl) fun r => by cases r <;> rfl)

theorem row6_readsOnly : RowReadsOnly 0x60 row6 :=
    ⟨.noMore rfl rfl, .noMore rfl rfl, .gvMem (fun _ _ h => h) (fun _ _ => rfl) fun _ hm => unused_register (by
    decide) hm, .noMore rfl rfl, .noMore rfl rfl, .noMore rfl rfl, .noMore rfl rfl, .noMore rfl rfl, .withWord
    (fun _ => rfl) fun _ => rfl, .evGvThen fun _ _ h => .withWord (fun _ => h) fun _ => rfl, .withByte (fun _ =>
    rfl) fun _ => rfl, .evGvThen fun _ _ h => .withByte (fun _ => h) fun _ => rfl, .noMore rfl rfl, .noMore rfl
    rfl, .noMore rfl rfl, .noMore rfl rfl, trivial⟩

theorem row7_readsOnly : RowReadsOnly 0x70 row7 :=
    ⟨.withByte (fun _ => rfl) fun _ => rfl, .withByte (fun _ => rfl) fun _ => rfl, .withByte (fun _ => rfl) fun _
    => rfl, .withByte (fun _ => rfl) fun _ => rfl, .withByte (fun _ => rfl) fun _ => rfl, .withByte (fun _ => rfl)
    fun _ => rfl, .withByte (fun _ => rfl) fun _ => rfl, .withByte (fun _ => rfl) fun _ => rfl, .withByte (fun _
    => rfl) fun _ => rfl, .withByte (fun _ => rfl) fun _ => rfl, .withByte (fun _ => rfl) fun _ => rfl, .withByte
    (fun _ => rfl) fun _ => rfl, .withByte (fun _ => rfl) fun _ => rfl, .withByte (fun _ => rfl) fun _ => rfl,
    .withByte (fun _ => rfl) fun _ => rfl, .withByte (fun _ => rfl) fun _ => rfl, trivial⟩

theorem row8_readsOnly : RowReadsOnly 0x80 row8 :=
    ⟨grp1Eb_readsOnly 0x80 false rfl, grp1Iw_readsOnly, grp1Eb_readsOnly 0x82 true rfl, grp1Is_readsOnly, .ebGb
    (fun _ _ h => h) fun _ _ => rfl, .evGv (fun _ _ h => h) fun _ _ => rfl, .ebGb (fun _ _ h => h) fun _ _ => rfl,
    .evGv (fun _ _ h => h) fun _ _ => rfl, .ebGb (fun _ _ h => h) fun _ _ => rfl, .evGv (fun _ _ h => h) fun _ _
    => rfl, .ebGb (fun _ _ h => h) fun _ _ => rfl, .evGv (fun _ _ h => h) fun _ _ => rfl, grp8C_readsOnly, .gvMem
    (fun _ _ h => h) (fun _ _ => rfl) fun _ hm => unused_register (by decide) hm, grp8E_readsOnly, .group fun _ =>
    ⟨.ev (fun _ h => h) fun _ => rfl, fun _ hm => unused_past_zero (by decide) hm⟩, trivial⟩

theorem row9_readsOnly : RowReadsOnly 0x90 row9 :=
    ⟨.noMore rfl rfl, .noMore rfl rfl, .noMore rfl rfl, .noMore rfl rfl, .noMore rfl rfl, .noMore rfl rfl, .noMore
    rfl rfl, .noMore rfl rfl, .noMore rfl rfl, .noMore rfl rfl, .withFarPointer (fun _ _ => rfl) fun _ _ => rfl,
    .noMore rfl rfl, .noMore rfl rfl, .noMore rfl rfl, .noMore rfl rfl, .noMore rfl rfl, trivial⟩

theorem rowA_readsOnly : RowReadsOnly 0xA0 rowA :=
    ⟨.withWord (fun _ => rfl) fun _ => rfl, .withWord (fun _ => rfl) fun _ => rfl, .withWord (fun _ => rfl) fun _
    => rfl, .withWord (fun _ => rfl) fun _ => rfl, .noMore rfl rfl, .noMore rfl rfl, .noMore rfl rfl, .noMore rfl
    rfl, .withByte (fun _ => rfl) fun _ => rfl, .withWord (fun _ => rfl) fun _ => rfl, .noMore rfl rfl, .noMore
    rfl rfl, .noMore rfl rfl, .noMore rfl rfl, .noMore rfl rfl, .noMore rfl rfl, trivial⟩

theorem rowB_readsOnly : RowReadsOnly 0xB0 rowB :=
    ⟨.withByte (fun _ => rfl) fun _ => rfl, .withByte (fun _ => rfl) fun _ => rfl, .withByte (fun _ => rfl) fun _
    => rfl, .withByte (fun _ => rfl) fun _ => rfl, .withByte (fun _ => rfl) fun _ => rfl, .withByte (fun _ => rfl)
    fun _ => rfl, .withByte (fun _ => rfl) fun _ => rfl, .withByte (fun _ => rfl) fun _ => rfl, .withWord (fun _
    => rfl) fun _ => rfl, .withWord (fun _ => rfl) fun _ => rfl, .withWord (fun _ => rfl) fun _ => rfl, .withWord
    (fun _ => rfl) fun _ => rfl, .withWord (fun _ => rfl) fun _ => rfl, .withWord (fun _ => rfl) fun _ => rfl,
    .withWord (fun _ => rfl) fun _ => rfl, .withWord (fun _ => rfl) fun _ => rfl, trivial⟩

theorem rowC_readsOnly : RowReadsOnly 0xC0 rowC :=
    ⟨grp2EbIb_readsOnly, grp2EvIb_readsOnly, .withWord (fun _ => rfl) fun _ => rfl, .noMore rfl rfl, .gvMem (fun _
    _ h => h) (fun _ _ => rfl) fun _ hm => unused_register (by decide) hm, .gvMem (fun _ _ h => h) (fun _ _ =>
    rfl) fun _ hm => unused_register (by decide) hm, .group fun _ => ⟨.ebIb (fun _ _ h => h) fun _ _ => rfl, fun _
    hm => unused_past_zero (by decide) hm⟩, .group fun _ => ⟨.evIw (fun _ _ h => h) fun _ _ => rfl, fun _ hm =>
    unused_past_zero (by decide) hm⟩, .withWordByte (fun _ _ => rfl) fun _ _ => rfl, .noMore rfl rfl, .withWord
    (fun _ => rfl) fun _ => rfl, .noMore rfl rfl, .noMore rfl rfl, .withByte (fun _ => rfl) fun _ => rfl, .noMore
    rfl rfl, .noMore rfl rfl, trivial⟩

theorem rowD_readsOnly : RowReadsOnly 0xD0 rowD :=
    ⟨grp2Eb_one_readsOnly, grp2Ev_one_readsOnly, grp2Eb_cl_readsOnly, grp2Ev_cl_readsOnly, .second0A rfl rfl,
    .second0A rfl rfl, .noMore rfl rfl, .noMore rfl rfl, .escOf 0, .escOf 1, .escOf 2, .escOf 3, .escOf 4, .escOf
    5, .escOf 6, .escOf 7, trivial⟩

theorem rowE_readsOnly : RowReadsOnly 0xE0 rowE :=
    ⟨.withByte (fun _ => rfl) fun _ => rfl, .withByte (fun _ => rfl) fun _ => rfl, .withByte (fun _ => rfl) fun _
    => rfl, .withByte (fun _ => rfl) fun _ => rfl, .withByte (fun _ => rfl) fun _ => rfl, .withByte (fun _ => rfl)
    fun _ => rfl, .withByte (fun _ => rfl) fun _ => rfl, .withByte (fun _ => rfl) fun _ => rfl, .withWord (fun _
    => rfl) fun _ => rfl, .withWord (fun _ => rfl) fun _ => rfl, .withFarPointer (fun _ _ => rfl) fun _ _ => rfl,
    .withByte (fun _ => rfl) fun _ => rfl, .noMore rfl rfl, .noMore rfl rfl, .noMore rfl rfl, .noMore rfl rfl,
    trivial⟩

theorem rowF_readsOnly : RowReadsOnly 0xF0 rowF :=
    ⟨.noMore rfl rfl, .noMore rfl rfl, .noMore rfl rfl, .noMore rfl rfl, .noMore rfl rfl, .noMore rfl rfl,
    grp3Eb_readsOnly, grp3Ev_readsOnly, .noMore rfl rfl, .noMore rfl rfl, .noMore rfl rfl, .noMore rfl rfl,
    .noMore rfl rfl, .noMore rfl rfl, grp4_readsOnly, grp5_readsOnly, trivial⟩

/-! ### The whole map -/

/-- Every row of the map from the row `n` on. -/
def MapReadsOnly : Nat → List (List Decoder) → Prop
  | _, [] => True
  | n, row :: rows => RowReadsOnly (16 * n) row ∧ MapReadsOnly (n + 1) rows

theorem RowReadsOnly.getD {n k : Nat} {rows : List (List Decoder)} (h : MapReadsOnly n rows) :
    RowReadsOnly (16 * (n + k)) (rows.getD k []) := by
  induction rows generalizing n k with
  | nil => trivial
  | cons row rows ih =>
    obtain ⟨hfirst, hothers⟩ := h
    cases k with
    | zero => exact hfirst
    | succ k =>
      rw [Nat.add_succ, ← Nat.succ_add]
      exact ih hothers

theorem opcodeMap_readsOnly : MapReadsOnly 0 opcodeMap :=
  ⟨row0_readsOnly, row1_readsOnly, row2_readsOnly, row3_readsOnly, row4_readsOnly, row5_readsOnly, row6_readsOnly,
    row7_readsOnly, row8_readsOnly, row9_readsOnly, rowA_readsOnly, rowB_readsOnly, rowC_readsOnly, rowD_readsOnly,
    rowE_readsOnly, rowF_readsOnly, trivial⟩

theorem opcodeDecoder_readsOnly (b : Byte) : ReadsOnly [b] (opcodeDecoder b) := by
  have hb : BitVec.ofNat 8 (16 * (0 + b.toNat / 16) + b.toNat % 16) = b := by
    rw [Nat.zero_add, Nat.div_add_mod, BitVec.ofNat_toNat, BitVec.setWidth_eq]
  have h := ReadsOnly.getD (k := b.toNat % 16) (RowReadsOnly.getD (k := b.toNat / 16) opcodeMap_readsOnly)
  rwa [hb] at h

/-- Settles O3: the byte at the front is the opcode, and its decoder reads only encodings that begin with it. -/
theorem decodedBytesAreTheEncoding : Obligations.DecodedBytesAreTheEncoding := by
  intro bs i rest h
  cases bs with
  | nil => contradiction
  | cons b bs => exact opcodeDecoder_readsOnly b bs i rest h

end Sys2Proof
end

section
/-! PROOF. Prefixes before the body (30_encoding.md R92, R93), and words written out from the tables: O1, O4. -/

namespace Sys2Proof

open Machine

/-- Settles O1: the decoder evaluates on the twelve byte sequences. -/
theorem decodesWordsOfTheEncoding : Obligations.DecodesWordsOfTheEncoding :=
  ⟨rfl, rfl, rfl, rfl, rfl, rfl, rfl, rfl, rfl, rfl, rfl, rfl⟩

/-! ### The first byte of an encoding -/

theorem prefixItem_canonical (i : Instr) : prefixItem (canonical i) = prefixItem i := by cases i <;> rfl

theorem stringPrimitive_canonical (i : Instr) : stringPrimitive (canonical i) = stringPrimitive i := by
  cases i <;> rfl

theorem opcodeDecoder_of_prefixClass {b : Byte} {c : PrefixClass} (h : prefixClass b = some c) :
    ∃ p, opcodeDecoder b = noMore p ∧ prefixItem p = some c := by
  unfold prefixClass at h
  split at h
  case isTrue hb =>
    cases h
    obtain rfl | rfl | rfl | rfl := hb
    exacts [⟨.segEs, rfl, rfl⟩, ⟨.segCs, rfl, rfl⟩, ⟨.segSs, rfl, rfl⟩, ⟨.segDs, rfl, rfl⟩]
  case isFalse =>
    split at h
    case isTrue hb =>
      cases h
      obtain rfl | rfl := hb
      exacts [⟨.repne, rfl, rfl⟩, ⟨.rep, rfl, rfl⟩]
    case isFalse =>
      split at h <;> cases h
      case isTrue hb => exact ⟨.lock, hb ▸ rfl, rfl⟩

theorem eq_of_isStringOpcode : ∀ b : Byte, isStringOpcode b = true →
    b = 0x6C ∨ b = 0x6D ∨ b = 0x6E ∨ b = 0x6F ∨ b = 0xA4 ∨ b = 0xA5 ∨ b = 0xA6 ∨ b = 0xA7
      ∨ b = 0xAA ∨ b = 0xAB ∨ b = 0xAC ∨ b = 0xAD ∨ b = 0xAE ∨ b = 0xAF := by decide

theorem opcodeDecoder_of_isStringOpcode {b : Byte} (h : isStringOpcode b = true) :
    ∃ p, opcodeDecoder b = noMore p ∧ stringPrimitive p ≠ none := by
  obtain rfl | rfl | rfl | rfl | rfl | rfl | rfl | rfl | rfl | rfl | rfl | rfl | rfl | rfl := eq_of_isStringOpcode b h
  all_goals exact ⟨_, rfl, Option.some_ne_none _⟩

/-- A string instruction is one byte, an opcode of R93's list. -/
theorem encode_of_stringPrimitive {i : Instr} (h : stringPrimitive i ≠ none) :
    ∃ b, encode i = [b] ∧ isStringOpcode b = true := by
  unfold stringPrimitive at h
  split at h
  case h_15 => contradiction
  all_goals exact ⟨_, rfl, rfl⟩

theorem encode_of_prefixItem {p : Instr} {c : PrefixClass} (h : prefixItem p = some c) :
    ∃ b, encode p = [b] ∧ prefixClass b = some c ∧ decodeItem [b] = .ok (p, []) := by
  unfold prefixItem at h
  split at h <;> cases h
  all_goals exact ⟨_, rfl, rfl, rfl⟩

/-- The first byte of a body is none of R92's, and it is on R93's list exactly if the body is a string
instruction: a byte that were read otherwise would be decoded as another item. -/
theorem encode_body {i : Instr} (hi : prefixItem i = none) (hw : i.wellFormed = true) :
    ∃ b tail, encode i = b :: tail ∧ prefixClass b = none ∧ (isStringOpcode b = true ↔ stringPrimitive i ≠ none) := by
  have hdec := decodeOfEncodeIsTheInstruction i [] hw
  rw [List.append_nil] at hdec
  cases henc : encode i with
  | nil =>
    rw [henc] at hdec
    contradiction
  | cons b tail =>
    rw [henc] at hdec
    refine ⟨b, tail, rfl, ?_, fun hb => ?_, fun hs => ?_⟩
    · rw [Option.eq_none_iff_forall_ne_some]
      intro c hc
      obtain ⟨p, hp, hclass⟩ := opcodeDecoder_of_prefixClass hc
      rw [decodeItem, hp] at hdec
      cases hdec
      simp [prefixItem_canonical, hi] at hclass
    · obtain ⟨p, hp, hprim⟩ := opcodeDecoder_of_isStringOpcode hb
      rw [decodeItem, hp] at hdec
      cases hdec
      rwa [stringPrimitive_canonical] at hprim
    · obtain ⟨b', hb', hstring⟩ := encode_of_stringPrimitive hs
      rw [henc] at hb'
      cases hb'
      exact hstring

/-! ### Prefixes and a body in front of the bytes -/

/-- Prefixes read before what follows them. -/
def readAfter (ps : List Instr) (r : Except DecodeError (List Instr × List Byte)) :
    Except DecodeError (List Instr × List Byte) :=
  r.map fun x => (ps ++ x.1, x.2)

theorem decodeItems_prefix {p : Instr} {c : PrefixClass} (hp : prefixItem p = some c) (seen : List PrefixClass)
    (bs : List Byte) : decodeItems seen (encode p ++ bs) =
      if c ∈ seen then .error .repeatedPrefix else readAfter [p] (decodeItems (c :: seen) bs) := by
  obtain ⟨b, henc, hclass, hdec⟩ := encode_of_prefixItem hp
  rw [henc, List.singleton_append, decodeItems]
  simp only [hclass, hdec, List.contains_iff_mem]
  split
  · rfl
  · cases decodeItems (c :: seen) bs <;> rfl

theorem decodeItems_body {i : Instr} (hi : prefixItem i = none) (hw : i.wellFormed = true) (seen : List PrefixClass)
    (rest : List Byte) : decodeItems seen (encode i ++ rest) =
      if .repetition ∈ seen ∧ stringPrimitive i = none then .error .repeatBeforeNonString
      else .ok ([canonical i], rest) := by
  have hdec := decodeOfEncodeIsTheInstruction i rest hw
  obtain ⟨b, tail, henc, hclass, hstring⟩ := encode_body hi hw
  rw [henc, List.cons_append] at hdec ⊢
  have hrefused : (seen.contains .repetition && !isStringOpcode b) = true
      ↔ .repetition ∈ seen ∧ stringPrimitive i = none := by
    rw [Bool.and_eq_true, List.contains_iff_mem, Bool.not_eq_true', ← Bool.not_eq_true, hstring, not_not]
  simp only [decodeItems, hclass, hdec, hrefused]

/-- Prefixes of classes that are all different and not yet seen are read one after another. -/
theorem decodeItems_prefixes {ps : List Instr} (hp : ∀ p ∈ ps, (prefixItem p).isSome = true)
    (hd : (ps.map prefixItem).Nodup) (seen : List PrefixClass) (hs : ∀ c ∈ seen, some c ∉ ps.map prefixItem)
    (bs : List Byte) : ∃ seen', (∀ c, c ∈ seen' ↔ c ∈ seen ∨ some c ∈ ps.map prefixItem)
      ∧ decodeItems seen (ps.flatMap encode ++ bs) = readAfter ps (decodeItems seen' bs) := by
  induction ps generalizing seen with
  | nil =>
    refine ⟨seen, fun c => by simp, ?_⟩
    cases h : decodeItems seen bs <;> simp [readAfter, h, Except.map]
  | cons p ps ih =>
    obtain ⟨c, hc⟩ := Option.isSome_iff_exists.mp (hp p List.mem_cons_self)
    rw [List.map_cons, hc, List.nodup_cons] at hd
    obtain ⟨hnew, hd⟩ := hd
    have hseen : c ∉ seen := fun h => hs c h (by simp [hc])
    have hs' : ∀ c' ∈ c :: seen, some c' ∉ ps.map prefixItem := by
      intro c' hc' hmem
      obtain rfl | hc' := List.mem_cons.mp hc'
      · exact hnew hmem
      · exact hs c' hc' (List.mem_cons_of_mem _ hmem)
    obtain ⟨seen', hmem, hdec⟩ := ih (fun q hq => hp q (List.mem_cons_of_mem _ hq)) hd (c :: seen) hs'
    refine ⟨seen', fun c' => ?_, ?_⟩
    · rw [hmem, List.mem_cons, List.map_cons, List.mem_cons, hc, Option.some_inj]
      tauto
    · rw [List.flatMap_cons, List.append_assoc, decodeItems_prefix hc, if_neg hseen, hdec]
      cases decodeItems seen' bs <;> rfl

/-! ### Whole instructions -/

theorem decodeInstruction_of_ok {bs rest : List Byte} {items : List Instr}
    (h : decodeItems [] bs = .ok (items, rest)) :
    decodeInstruction bs = .ok { items := items, length := bs.length - rest.length } := by
  simp only [decodeInstruction, h]

theorem decodeInstruction_of_error {bs : List Byte} {e : DecodeError} (h : decodeItems [] bs = .error e) :
    decodeInstruction bs = .error e := by
  simp only [decodeInstruction, h]

/-- Settles O4: the prefixes are read in their order, then the body, or the item that repeats a class. -/
theorem prefixesPrecedeTheBody : Obligations.PrefixesPrecedeTheBody := by
  intro ps rest hp hd
  have hread := decodeItems_prefixes hp hd [] (fun c hc => by simp at hc)
  refine ⟨fun i hi hw => ?_, fun q c hq hc => ?_⟩
  · obtain ⟨seen, hmem, hdec⟩ := hread (encode i ++ rest)
    rw [← List.append_assoc, decodeItems_body hi hw] at hdec
    simp only [hmem, List.not_mem_nil, false_or] at hdec
    split
    case isTrue h => exact decodeInstruction_of_error (by rw [hdec, if_pos h]; rfl)
    case isFalse h =>
      rw [decodeInstruction_of_ok (by rw [hdec, if_neg h]; rfl), List.length_append (bs := rest), Nat.add_sub_cancel]
  · obtain ⟨seen, hmem, hdec⟩ := hread (encode q ++ rest)
    rw [← List.append_assoc, decodeItems_prefix hq, if_pos ((hmem c).mpr (.inr hc))] at hdec
    exact decodeInstruction_of_error hdec

end Sys2Proof
end

section
/-! PROOF. What an instruction may do, said once for all instructions: O7, O18, O58, O59, O60 are read off it. -/

namespace Sys2Proof.Machine

/-! ### Permissions, and what is done under them -/

/-- What an instruction may do beside reading and writing registers, IP and memory. -/
structure May where
  /-- write CS -/
  cs : Bool
  /-- take an answer from the environment and hand values to it -/
  port : Bool
  /-- inhibit interrupts for an instruction -/
  inhibits : Bool
  /-- halt -/
  halts : Bool
  /-- change these flags -/
  flags : List FlagName

/-- `Acts m s t`: `t` is reached from `s` by the state's operations, under the permissions `m`. The flags and CS are
compared with those of `s`. -/
inductive Acts (m : May) (s : State) : State → Prop
  | refl : Acts m s s
  | setGpr {t} (h : Acts m s t) (g : Gpr) : Acts m s (t.setGpr g)
  | setIp {t} (h : Acts m s t) (v : Word) : Acts m s (t.setIp v)
  | setSegs {t} (h : Acts m s t) {g : Segs} (hg : m.cs = true ∨ g.cs = s.seg.cs) : Acts m s (t.setSegs g)
  | setFlags {t} (h : Acts m s t) {f : Flags} (hf : ∀ n, n ∉ m.flags → f.flag n = s.flags.flag n) :
      Acts m s (t.setFlags f)
  | setLatches {t} (h : Acts m s t) (l : Latches) : Acts m s (t.setLatches l)
  | wake {t} (h : Acts m s t) : Acts m s (t.setHalted false)
  | halt {t} (h : Acts m s t) (hm : m.halts = true) : Acts m s (t.setHalted true)
  | release {t} (h : Acts m s t) : Acts m s (t.setInhibit .none)
  | inhibit {t} (h : Acts m s t) (hm : m.inhibits = true) (i : Inhibit) : Acts m s (t.setInhibit i)
  | flushQueue {t} (h : Acts m s t) : Acts m s t.flushQueue
  | draw {t} (h : Acts m s t) : Acts m s t.draw.2
  | readByte {t} (h : Acts m s t) (a : Nat) : Acts m s (t.readByte a).2
  | writeByte {t} (h : Acts m s t) {a : Nat} (ha : a < memorySize) (b : Byte) : Acts m s (t.writeByte a b)
  | nextAnswer {t} (h : Acts m s t) (hm : m.port = true) : Acts m s t.nextAnswer.2
  | logEvent {t} (h : Acts m s t) (hm : m.port = true) (e : Event) : Acts m s (t.logEvent e)

/-- The part of `State.wf` that is about memory. -/
def State.memoryWf (s : State) : Prop := Memory.wf s.mem = true ∧ ∀ a ∈ s.stored, a < memorySize

namespace Acts

variable {m : May} {s t u : State}

/-! ### What the permissions say -/

/-- A flag that is not listed is as before. -/
theorem flag_eq (h : Acts m s t) {n : FlagName} (hn : n ∉ m.flags) : t.flags.flag n = s.flags.flag n := by
  induction h with
  | refl => rfl
  | setFlags h hf ih => exact hf n hn
  | readByte h a ih => rwa [State.readByte_flags]
  | writeByte h ha b ih => rwa [State.writeByte_flags]
  | nextAnswer h hm ih => rwa [State.nextAnswer_flags]
  | _ => assumption

theorem cs_eq (h : Acts m s t) (hm : m.cs = false) : t.seg.cs = s.seg.cs := by
  induction h with
  | refl => rfl
  | setSegs h hg ih => exact hg.resolve_left (by simp [hm])
  | readByte h a ih => rwa [State.readByte_seg]
  | writeByte h ha b ih => rwa [State.writeByte_seg]
  | nextAnswer h hm ih => rwa [State.nextAnswer_seg]
  | _ => assumption

theorem devices_eq (h : Acts m s t) : t.devices = s.devices := by
  induction h with
  | refl => rfl
  | readByte h a ih => rwa [State.readByte_devices]
  | writeByte h ha b ih => rwa [State.writeByte_devices]
  | nextAnswer h hm ih => rwa [State.nextAnswer_devices]
  | _ => assumption

/-- Without a port, and where memory is plain, the environment sees nothing. -/
theorem env_eq (h : Acts m s t) (hm : m.port = false) (hd : s.devices = []) : t.env = s.env := by
  induction h with
  | refl => rfl
  | readByte h a ih => rwa [State.readByte_plain (State.isDevice_nil (h.devices_eq.trans hd) a)]
  | writeByte h ha b ih => simpa [State.writeByte, State.isDevice_nil (h.devices_eq.trans hd)] using ih
  | nextAnswer h hp ih => simp [hm] at hp
  | logEvent h hp e ih => simp [hm] at hp
  | _ => assumption

theorem inhibit_eq_none (h : Acts m s t) (hm : m.inhibits = false) (hs : s.inhibit = .none) : t.inhibit = .none := by
  induction h with
  | release h ih => rfl
  | inhibit h hi i ih => simp [hm] at hi
  | readByte h a ih => rwa [State.readByte_inhibit]
  | writeByte h ha b ih => rwa [State.writeByte_inhibit]
  | nextAnswer h hp ih => rwa [State.nextAnswer_inhibit]
  | _ => assumption

theorem halted_eq_false (h : Acts m s t) (hm : m.halts = false) (hs : s.halted = false) : t.halted = false := by
  induction h with
  | wake h ih => rfl
  | halt h hi ih => simp [hm] at hi
  | readByte h a ih => rwa [State.readByte_halted]
  | writeByte h ha b ih => rwa [State.writeByte_halted]
  | nextAnswer h hp ih => rwa [State.nextAnswer_halted]
  | _ => assumption

theorem memoryWf (h : Acts m s t) (hs : s.memoryWf) : t.memoryWf := by
  induction h with
  | flushQueue h ih => exact ⟨ih.1, fun a ha => absurd ha List.not_mem_nil⟩
  | readByte h a ih => rwa [State.memoryWf, State.readByte_mem, State.readByte_stored]
  | writeByte h ha b ih =>
    obtain ⟨hmem, hstored⟩ := ih
    unfold State.writeByte
    split
    · exact ⟨hmem, hstored⟩
    · exact ⟨Memory.wf_write hmem ha, List.forall_mem_cons.mpr ⟨ha, hstored⟩⟩
  | nextAnswer h hp ih => rwa [State.memoryWf, State.nextAnswer_mem, State.nextAnswer_stored]
  | _ => assumption

theorem trans (h : Acts m s t) (k : Acts m t u) : Acts m s u := by
  induction k with
  | refl => exact h
  | setGpr k g ih => exact ih.setGpr g
  | setIp k v ih => exact ih.setIp v
  | setSegs k hg ih =>
    cases hm : m.cs with
    | true => exact ih.setSegs (.inl hm)
    | false => exact ih.setSegs (.inr ((hg.resolve_left (by simp [hm])).trans (h.cs_eq hm)))
  | setFlags k hf ih => exact ih.setFlags fun n hn => (hf n hn).trans (h.flag_eq hn)
  | setLatches k l ih => exact ih.setLatches l
  | wake k ih => exact ih.wake
  | halt k hm ih => exact ih.halt hm
  | release k ih => exact ih.release
  | inhibit k hm i ih => exact ih.inhibit hm i
  | flushQueue k ih => exact ih.flushQueue
  | draw k ih => exact ih.draw
  | readByte k a ih => exact ih.readByte a
  | writeByte k ha b ih => exact ih.writeByte ha b
  | nextAnswer k hm ih => exact ih.nextAnswer hm
  | logEvent k hm e ih => exact ih.logEvent hm e

/-! ### The shared operations -/

theorem setReg16 (h : Acts m s t) (r : Reg16) (v : Word) : Acts m s (t.setReg16 r v) := h.setGpr _

theorem setReg8 (h : Acts m s t) (r : Reg8) (v : Byte) : Acts m s (t.setReg8 r v) := h.setGpr _

/-- A load of ES, SS or DS. -/
theorem loadSReg (h : Acts m s t) (r : LoadSReg) (v : Word) : Acts m s (t.loadSReg r v) := by
  refine h.setSegs ?_
  rw [Segs.load_cs]
  cases hm : m.cs with
  | true => exact .inl rfl
  | false => exact .inr (h.cs_eq hm)

theorem memRead8 (h : Acts m s t) (seg off : Word) : Acts m s (t.memRead8 seg off).2 := h.readByte _

theorem memRead16 (h : Acts m s t) (seg off : Word) : Acts m s (t.memRead16 seg off).2 := (h.readByte _).readByte _

theorem memWrite8 (h : Acts m s t) (seg off : Word) (v : Byte) : Acts m s (t.memWrite8 seg off v) :=
  h.writeByte (byteAddr_lt _ _ _) v

theorem memWrite16 (h : Acts m s t) (seg off v : Word) : Acts m s (t.memWrite16 seg off v) :=
  (h.writeByte (byteAddr_lt _ _ _) _).writeByte (byteAddr_lt _ _ _) _

theorem read8 (h : Acts m s t) (l : Loc Reg8) : Acts m s (t.read8 l).2 := by
  cases l with
  | reg r => exact h
  | mem seg off => exact h.memRead8 seg off

theorem read16 (h : Acts m s t) (l : Loc Reg16) : Acts m s (t.read16 l).2 := by
  cases l with
  | reg r => exact h
  | mem seg off => exact h.memRead16 seg off

theorem write8 (h : Acts m s t) (l : Loc Reg8) (v : Byte) : Acts m s (t.write8 l v) := by
  cases l with
  | reg r => exact h.setReg8 r v
  | mem seg off => exact h.memWrite8 seg off v

theorem write16 (h : Acts m s t) (l : Loc Reg16) (v : Word) : Acts m s (t.write16 l v) := by
  cases l with
  | reg r => exact h.setReg16 r v
  | mem seg off => exact h.memWrite16 seg off v

theorem readPointer (h : Acts m s t) (p : Mem) : Acts m s (t.readPointer p).2 :=
  (h.memRead16 _ _).memRead16 _ _

theorem push16 (h : Acts m s t) (v : Word) : Acts m s (t.push16 v) := (h.setReg16 _ _).memWrite16 _ _ v

theorem pop16 (h : Acts m s t) : Acts m s t.pop16.2 := (h.memRead16 _ _).setReg16 _ _

theorem jumpTo (h : Acts m s t) (v : Word) : Acts m s (t.jumpTo v) := (h.setIp v).flushQueue

theorem farJumpTo (h : Acts m s t) (hm : m.cs = true) (c v : Word) : Acts m s (t.farJumpTo c v) :=
  ((h.setSegs (.inl hm)).setIp v).flushQueue

theorem jumpIf (h : Acts m s t) (c : Bool) (rel : Byte) : Acts m s (t.jumpIf c rel) := by
  cases c with
  | false => exact h
  | true => exact h.jumpTo _

theorem ioRead8 (h : Acts m s t) (hm : m.port = true) (p : Word) : Acts m s (t.ioRead8 p).2 :=
  (h.nextAnswer hm).logEvent hm _

theorem ioRead16 (h : Acts m s t) (hm : m.port = true) (p : Word) : Acts m s (t.ioRead16 p).2 :=
  (h.nextAnswer hm).logEvent hm _

theorem pushFlags (h : Acts m s t) : Acts m s t.pushFlags := h.draw.push16 _

/-- New flags that agree with those of the present state outside the listed ones. -/
theorem updateFlags (h : Acts m s t) {f : Flags} (hf : ∀ n, n ∉ m.flags → f.flag n = t.flags.flag n) :
    Acts m s (t.setFlags f) :=
  h.setFlags fun n hn => (hf n hn).trans (h.flag_eq hn)

/-- Taking an interrupt (60_exceptions.md R345). -/
theorem interrupt (h : Acts m s t) (hc : m.cs = true) (hi : .ifl ∈ m.flags) (ht : .tf ∈ m.flags) (n : Byte)
    (ret : Word) : Acts m s (t.interrupt n ret) := by
  have hmask : ∀ k, k ∉ m.flags → t.pushFlags.flags.maskInterrupts.flag k = t.pushFlags.flags.flag k := by
    intro k hk
    cases k
    case ifl => contradiction
    case tf => contradiction
    all_goals rfl
  have hmasked := h.pushFlags.updateFlags hmask
  exact (((((hmasked.push16 _).memRead16 _ _).push16 _).memRead16 _ _).farJumpTo hc _ _).wake.release

theorem interruptReturn (h : Acts m s t) (hc : m.cs = true) (hf : ∀ n, n ∈ m.flags) : Acts m s t.interruptReturn :=
  (h.pop16.pop16.pop16.updateFlags fun n hn => absurd (hf n) hn).farJumpTo hc _ _

end Acts
end Sys2Proof.Machine
end

section
/-! PROOF. Every instruction acts under its permissions: O58, O59, O60; for O7 and O18. -/

namespace Sys2Proof.Machine

/-! ### Which flags the flag computations leave alone -/

/-- Flags outside the status flags are control flags. -/
theorem controlFlagsKept.flag_eq {f g : Flags} (h : controlFlagsKept f g) (n : FlagName) (hn : n ∉ statusFlags) :
    g.flag n = f.flag n := by
  obtain ⟨htf, hifl, hdf⟩ := h
  cases n
  case tf => exact htf
  case ifl => exact hifl
  case df => exact hdf
  all_goals contradiction

/-- Flags outside those of INC and DEC are the control flags and CF. -/
theorem flag_eq_of_carryKept {f g : Flags} (h : controlFlagsKept f g) (hc : g.cf = f.cf) (n : FlagName)
    (hn : n ∉ [FlagName.ofl, .sf, .zf, .af, .pf]) : g.flag n = f.flag n := by
  obtain ⟨htf, hifl, hdf⟩ := h
  cases n
  case tf => exact htf
  case ifl => exact hifl
  case df => exact hdf
  case cf => exact hc
  all_goals contradiction

theorem controlFlagsKept_sub {w : Nat} (f : Flags) (a b : BitVec w) (c : Bool) :
    controlFlagsKept f (f.sub a b c) := ⟨rfl, rfl, rfl⟩

theorem controlFlagsKept_shift {w : Nat} (f : Flags) (c : Nat) (r : Shifted w) (o : Bool) (d : Word) :
    controlFlagsKept f (f.shift c r o d) := by
  unfold Flags.shift
  split <;> exact ⟨rfl, rfl, rfl⟩

/-- A rotate writes CF and OF only. -/
theorem Flags.flag_rotate {w : Nat} (f : Flags) (c : Nat) (r : Shifted w) (o : Bool) (d : Word) (n : FlagName)
    (hn : n ∉ [FlagName.ofl, .cf]) : (f.rotate c r o d).flag n = f.flag n := by
  unfold Flags.rotate
  cases n
  case ofl => contradiction
  case cf => contradiction
  all_goals split <;> rfl

/-! ### The shapes of the instructions -/

namespace Acts

variable {m : May} {s t : State}

/-- The operation changes no flag that is not listed. -/
def Respects (m : May) (op : BinaryOp) : Prop :=
  ∀ w (a b : BitVec w) (f : Flags) n, n ∉ m.flags → (op w a b f).2.flag n = f.flag n

def RespectsUnary (m : May) (op : UnaryOp) : Prop :=
  ∀ w (a : BitVec w) (f : Flags) n, n ∉ m.flags → (op w a f).2.flag n = f.flag n

theorem put8 (h : Acts m s t) {r : Byte × Flags} (hf : ∀ n, n ∉ m.flags → r.2.flag n = s.flags.flag n)
    (l : Loc Reg8) : Acts m s (t.put8 l r) := (h.setFlags hf).write8 l _

theorem put16 (h : Acts m s t) {r : Word × Flags} (hf : ∀ n, n ∉ m.flags → r.2.flag n = s.flags.flag n)
    (l : Loc Reg16) : Acts m s (t.put16 l r) := (h.setFlags hf).write16 l _

theorem binary {op : BinaryOp} (hop : Respects m op) (f : AluForm) : Acts m s (s.binary op f) := by
  cases f
  case ebGb e g => exact (refl.read8 _).put8 (hop _ _ _ _) _
  case evGv e g => exact (refl.read16 _).put16 (hop _ _ _ _) _
  case gbEb g e => exact (refl.read8 _).put8 (hop _ _ _ _) _
  case gvEv g e => exact (refl.read16 _).put16 (hop _ _ _ _) _
  case alIb b => exact refl.put8 (hop _ _ _ _) _
  case axIw w => exact refl.put16 (hop _ _ _ _) _
  case ebIb o e b => exact (refl.read8 _).put8 (hop _ _ _ _) _
  case evIw e w => exact (refl.read16 _).put16 (hop _ _ _ _) _
  case evIs e b => exact (refl.read16 _).put16 (hop _ _ _ _) _

theorem compare {op : BinaryOp} (hop : Respects m op) (f : AluForm) : Acts m s (s.compare op f) := by
  cases f
  case ebGb e g => exact (refl.read8 _).setFlags (hop _ _ _ _)
  case evGv e g => exact (refl.read16 _).setFlags (hop _ _ _ _)
  case gbEb g e => exact (refl.read8 _).setFlags (hop _ _ _ _)
  case gvEv g e => exact (refl.read16 _).setFlags (hop _ _ _ _)
  case alIb b => exact refl.setFlags (hop _ _ _ _)
  case axIw w => exact refl.setFlags (hop _ _ _ _)
  case ebIb o e b => exact (refl.read8 _).setFlags (hop _ _ _ _)
  case evIw e w => exact (refl.read16 _).setFlags (hop _ _ _ _)
  case evIs e b => exact (refl.read16 _).setFlags (hop _ _ _ _)

theorem testForm {op : BinaryOp} (hop : Respects m op) (f : TestForm) : Acts m s (s.testForm op f) := by
  cases f
  case ebGb e g => exact (refl.read8 _).setFlags (hop _ _ _ _)
  case evGv e g => exact (refl.read16 _).setFlags (hop _ _ _ _)
  case alIb b => exact refl.setFlags (hop _ _ _ _)
  case axIw w => exact refl.setFlags (hop _ _ _ _)
  case ebIb e b => exact (refl.read8 _).setFlags (hop _ _ _ _)
  case evIw e w => exact (refl.read16 _).setFlags (hop _ _ _ _)

theorem unary {op : UnaryOp} (hop : RespectsUnary m op) (f : RmForm) : Acts m s (s.unary op f) := by
  cases f
  case eb e => exact (refl.read8 _).put8 (hop _ _ _) _
  case ev e => exact (refl.read16 _).put16 (hop _ _ _) _

theorem incForm {op : UnaryOp} (hop : RespectsUnary m op) (f : IncForm) : Acts m s (s.incForm op f) := by
  cases f
  case reg r => exact refl.put16 (hop _ _ _) _
  case eb e => exact unary hop (.eb e)
  case ev e => exact unary hop (.ev e)

theorem shift {op : ShiftOp} (hop : ∀ c d, RespectsUnary m (op c d)) (f : RmForm) (c : Count) :
    Acts m s (s.shift op f c) := (unary (hop _ _) f).draw

theorem setDxAx (h : Acts m s t) (p : BitVec 32) : Acts m s (t.setDxAx p) := (h.setReg16 _ _).setReg16 _ _

theorem productFlags (h : Acts m s t) (hm : m.flags = statusFlags) (o : Bool) : Acts m s (t.productFlags o) :=
  h.draw.updateFlags fun n hn =>
    (show controlFlagsKept t.flags (t.flags.multiply o t.draw.1) from ⟨rfl, rfl, rfl⟩).flag_eq n (hm ▸ hn)

/-- The status flags may be written. -/
def MayStatus (m : May) : Prop := statusFlags ⊆ m.flags

theorem mayStatus_of_divide (h : m.flags = [.ofl, .ifl, .tf, .sf, .zf, .af, .pf, .cf]) : MayStatus m := by
  rw [MayStatus, h]
  decide

theorem divideFlags (h : Acts m s t) (hm : MayStatus m) : Acts m s t.divideFlags :=
  h.draw.updateFlags fun n hn =>
    (show controlFlagsKept t.flags (t.flags.undefStatus t.draw.1) from ⟨rfl, rfl, rfl⟩).flag_eq n fun hs => hn (hm hs)

theorem divideError8 (h : Acts m s t) (hm : MayStatus m) (hc : m.cs = true) (hi : .ifl ∈ m.flags)
    (ht : .tf ∈ m.flags) : Acts m s t.divideError8 :=
  ((h.divideFlags hm).draw.setReg16 _ _).interrupt hc hi ht _ _

theorem divideError16 (h : Acts m s t) (hm : MayStatus m) (hc : m.cs = true) (hi : .ifl ∈ m.flags)
    (ht : .tf ∈ m.flags) : Acts m s t.divideError16 :=
  (((h.divideFlags hm).draw.setReg16 _ _).draw.setReg16 _ _).interrupt hc hi ht _ _

theorem divided8 (h : Acts m s t) (hm : MayStatus m) (q r : Byte) : Acts m s (t.divided8 q r) :=
  (h.divideFlags hm).setReg16 _ _

theorem divided16 (h : Acts m s t) (hm : MayStatus m) (q r : Word) : Acts m s (t.divided16 q r) :=
  ((h.divideFlags hm).setReg16 _ _).setReg16 _ _

theorem asciiAdjust (hm : m.flags = statusFlags) (al ah : Byte) (adjusts : Bool) :
    Acts m s (s.asciiAdjust al ah adjusts) :=
  (refl.draw.setReg16 _ _).setFlags fun n hn => controlFlagsKept.flag_eq (by exact ⟨rfl, rfl, rfl⟩) n (hm ▸ hn)

theorem asciiScale (hm : m.flags = statusFlags) (al ah : Byte) : Acts m s (s.asciiScale al ah) :=
  (refl.draw.setReg16 _ _).setFlags fun n hn => controlFlagsKept.flag_eq (by exact ⟨rfl, rfl, rfl⟩) n (hm ▸ hn)

theorem decimalAdjust (hm : m.flags = statusFlags) (al : Byte) (af cf : Bool) : Acts m s (s.decimalAdjust al af cf) :=
  (refl.draw.setReg8 _ _).setFlags fun n hn => controlFlagsKept.flag_eq (by exact ⟨rfl, rfl, rfl⟩) n (hm ▸ hn)

/-- One step of a repeated string instruction is its primitive, the count and IP. -/
theorem repeated {primitive : State → State} (h : Acts m s (primitive s)) (compares : Bool) :
    Acts m s (s.repeated compares primitive) := by
  unfold State.repeated
  split
  · exact h
  · split
    · exact refl
    · dsimp only
      split
      · exact h.setReg16 _ _
      · exact (h.setReg16 _ _).setIp _

theorem copyFrames (h : Acts m s t) (n : Nat) : Acts m s (t.copyFrames n) := by
  induction n generalizing t with
  | zero => exact h
  | succ n ih => exact ih (((h.setReg16 _ _).memRead16 _ _).push16 _)

theorem enterDisplay (h : Acts m s t) (fp : Word) (n : Nat) : Acts m s (t.enterDisplay fp n) := by
  cases n with
  | zero => exact h
  | succ n => exact (h.copyFrames n).push16 fp

end Acts

/-! ### Every instruction -/

/-- The instructions that inhibit interrupts: STI and the loads of a segment register by MOV and POP. -/
def mayInhibit : Instr → Bool
  | .sti => true
  | .movToSeg _ _ => true
  | .popSeg _ => true
  | _ => false

/-- The permissions of an instruction. -/
def mayOf (i : Instr) : May :=
  { cs := mayWriteCs i, port := usesPort i, inhibits := mayInhibit i, halts := decide (i = .hlt),
    flags := flagsWritten i }

/-- An outcome that is a state is reached under the permissions. -/
def DoesUnder (m : May) (s : State) : Host.Outcome State Fault Refusal → Prop
  | .next t => Acts m s t
  | .fault _ => True
  | .refused _ => True

open Acts in
/-- Every instruction acts under its permissions, case by case along the dispatch. -/
theorem exec_doesUnder (i : Instr) (s : State) : DoesUnder (mayOf i) s (exec i s) := by
  have status : ∀ i, flagsWritten i = statusFlags → ∀ {f g : Flags}, controlFlagsKept f g →
      ∀ n, n ∉ (mayOf i).flags → g.flag n = f.flag n :=
    fun i hi _ _ h n hn => h.flag_eq n fun hs => hn (show n ∈ flagsWritten i from hi ▸ hs)
  cases i
  case mov f =>
    cases f
    case ebGb e g => exact refl.write8 _ _
    case evGv e g => exact refl.write16 _ _
    case gbEb g e => exact (refl.read8 _).setReg8 _ _
    case gvEv g e => exact (refl.read16 _).setReg16 _ _
    case alOb a => exact (refl.memRead8 _ _).setReg8 _ _
    case axOv a => exact (refl.memRead16 _ _).setReg16 _ _
    case obAl a => exact refl.memWrite8 _ _ _
    case ovAx a => exact refl.memWrite16 _ _ _
    case gbIb g b => exact refl.setReg8 _ _
    case gvIw g w => exact refl.setReg16 _ _
    case ebIb e b => exact refl.write8 _ _
    case evIw e w => exact refl.write16 _ _
  case movFromSeg e r => exact refl.write16 _ _
  case movToSeg r e => exact ((refl.read16 _).loadSReg _ _).inhibit rfl _
  case pushReg r => exact refl.push16 _
  case pushRm e => exact (refl.read16 _).push16 _
  case pushSeg r => exact refl.push16 _
  case pushImm f => exact refl.push16 _
  case popReg r => exact refl.pop16.setReg16 _ _
  case popRm e => exact refl.pop16.write16 _ _
  case popSeg r => exact (refl.pop16.loadSReg _ _).inhibit rfl _
  case pusha =>
    exact (((((((refl.push16 _).push16 _).push16 _).push16 _).push16 _).push16 _).push16 _).push16 _
  case popa =>
    have hinto : ∀ {t}, Acts (mayOf .popa) s t → ∀ r, Acts (mayOf .popa) s (t.popInto r) :=
      fun h r => h.pop16.setReg16 _ _
    exact hinto (hinto (hinto (hinto ((hinto (hinto (hinto refl .di) .si) .bp).setReg16 _ _) .bx) .dx) .cx) .ax
  case pushf => exact refl.pushFlags
  case popf => exact refl.pop16.setFlags fun n hn => absurd (by cases n <;> decide) hn
  case xchg f =>
    cases f
    case ebGb e g => exact ((refl.read8 _).write8 _ _).setReg8 _ _
    case evGv e g => exact ((refl.read16 _).write16 _ _).setReg16 _ _
    case axReg r => exact (refl.setReg16 _ _).setReg16 _ _
  case xlat => exact (refl.memRead8 _ _).setReg8 _ _
  case inAcc f =>
    cases f
    case byteImm p => exact (refl.ioRead8 rfl _).setReg8 _ _
    case wordImm p => exact (refl.ioRead16 rfl _).setReg16 _ _
    case byteDx => exact (refl.ioRead8 rfl _).setReg8 _ _
    case wordDx => exact (refl.ioRead16 rfl _).setReg16 _ _
  case outAcc f => cases f <;> exact refl.logEvent rfl _
  case lea g p => exact refl.setReg16 _ _
  case lds g p => exact ((refl.readPointer _).setReg16 _ _).loadSReg _ _
  case les g p => exact ((refl.readPointer _).setReg16 _ _).loadSReg _ _
  case lahf => exact refl.draw.setReg8 _ _
  case sahf =>
    refine refl.setFlags fun n hn => ?_
    cases n <;> first | rfl | exact absurd (by decide) hn
  case add f => exact binary (fun _ _ _ _ => status (.add f) rfl ⟨rfl, rfl, rfl⟩) f
  case adc f => exact binary (fun _ _ _ _ => status (.adc f) rfl ⟨rfl, rfl, rfl⟩) f
  case sub f => exact binary (fun _ _ _ _ => status (.sub f) rfl ⟨rfl, rfl, rfl⟩) f
  case sbb f => exact binary (fun _ _ _ _ => status (.sbb f) rfl ⟨rfl, rfl, rfl⟩) f
  case cmp f => exact compare (fun _ _ _ _ => status (.cmp f) rfl ⟨rfl, rfl, rfl⟩) f
  case and f => exact (binary (fun _ _ _ _ => status (.and f) rfl ⟨rfl, rfl, rfl⟩) f).draw
  case or f => exact (binary (fun _ _ _ _ => status (.or f) rfl ⟨rfl, rfl, rfl⟩) f).draw
  case xor f => exact (binary (fun _ _ _ _ => status (.xor f) rfl ⟨rfl, rfl, rfl⟩) f).draw
  case test f => exact (testForm (fun _ _ _ _ => status (.test f) rfl ⟨rfl, rfl, rfl⟩) f).draw
  case neg f => exact unary (fun _ _ _ => status (.neg f) rfl ⟨rfl, rfl, rfl⟩) f
  case inc f => exact incForm (fun _ _ _ => flag_eq_of_carryKept (by exact ⟨rfl, rfl, rfl⟩) (by rfl)) f
  case dec f => exact incForm (fun _ _ _ => flag_eq_of_carryKept (by exact ⟨rfl, rfl, rfl⟩) (by rfl)) f
  case mul f =>
    cases f
    case eb e => exact ((refl.read8 _).setReg16 _ _).productFlags rfl _
    case ev e => exact ((refl.read16 _).setDxAx _).productFlags rfl _
  case imul f =>
    cases f
    case eb e => exact ((refl.read8 _).setReg16 _ _).productFlags rfl _
    case ev e => exact ((refl.read16 _).setDxAx _).productFlags rfl _
  case imulImm g e f => exact ((refl.read16 _).setReg16 _ _).productFlags rfl _
  case div f =>
    have hm : MayStatus (mayOf (.div f)) := mayStatus_of_divide rfl
    cases f
    case eb e =>
      refine (show Acts _ s (ite _ _ _) from ?_)
      split
      · exact (refl.read8 _).divideError8 hm rfl (.tail _ (.head _)) (.tail _ (.tail _ (.head _)))
      · exact (refl.read8 _).divided8 hm _ _
    case ev e =>
      refine (show Acts _ s (ite _ _ _) from ?_)
      split
      · exact (refl.read16 _).divideError16 hm rfl (.tail _ (.head _)) (.tail _ (.tail _ (.head _)))
      · exact (refl.read16 _).divided16 hm _ _
  case idiv f =>
    have hm : MayStatus (mayOf (.idiv f)) := mayStatus_of_divide rfl
    cases f
    case eb e =>
      refine (show Acts _ s (ite _ _ _) from ?_)
      split
      · exact (refl.read8 _).divideError8 hm rfl (.tail _ (.head _)) (.tail _ (.tail _ (.head _)))
      · exact (refl.read8 _).divided8 hm _ _
    case ev e =>
      refine (show Acts _ s (ite _ _ _) from ?_)
      split
      · exact (refl.read16 _).divideError16 hm rfl (.tail _ (.head _)) (.tail _ (.tail _ (.head _)))
      · exact (refl.read16 _).divided16 hm _ _
  case aaa =>
    refine (show Acts _ s (ite _ _ _) from ?_)
    split <;> exact asciiAdjust rfl _ _ _
  case aas =>
    refine (show Acts _ s (ite _ _ _) from ?_)
    split <;> exact asciiAdjust rfl _ _ _
  case aam => exact asciiScale rfl _ _
  case aad => exact asciiScale rfl _ _
  case daa => exact decimalAdjust rfl _ _ _
  case das =>
    refine (show Acts _ s (ite _ _ _) from ?_)
    split
    · exact (refl.divideFlags (List.Subset.refl _)).draw.setReg8 _ _
    · exact decimalAdjust rfl _ _ _
  case cbw => exact refl.setReg8 _ _
  case cwd => exact refl.setReg16 _ _
  case not f => exact unary (fun _ _ _ _ _ => rfl) f
  case shl f c => exact shift (fun _ _ _ _ _ => status (.shl f c) rfl (controlFlagsKept_shift _ _ _ _ _)) f c
  case shr f c => exact shift (fun _ _ _ _ _ => status (.shr f c) rfl (controlFlagsKept_shift _ _ _ _ _)) f c
  case sar f c => exact shift (fun _ _ _ _ _ => status (.sar f c) rfl (controlFlagsKept_shift _ _ _ _ _)) f c
  case rol f c => exact shift (fun _ _ _ _ _ => Flags.flag_rotate _ _ _ _ _) f c
  case ror f c => exact shift (fun _ _ _ _ _ => Flags.flag_rotate _ _ _ _ _) f c
  case rcl f c => exact shift (fun _ _ _ _ _ => Flags.flag_rotate _ _ _ _ _) f c
  case rcr f c => exact shift (fun _ _ _ _ _ => Flags.flag_rotate _ _ _ _ _) f c
  case insb => exact repeated (primitive := State.ins8) (((refl.ioRead8 rfl _).memWrite8 _ _ _).setReg16 _ _) _
  case insw => exact repeated (primitive := State.ins16) (((refl.ioRead16 rfl _).memWrite16 _ _ _).setReg16 _ _) _
  case outsb => exact repeated (primitive := State.outs8) (((refl.memRead8 _ _).logEvent rfl _).setReg16 _ _) _
  case outsw => exact repeated (primitive := State.outs16) (((refl.memRead16 _ _).logEvent rfl _).setReg16 _ _) _
  case movsb =>
    exact repeated (primitive := State.movs8)
      ((((refl.memRead8 _ _).memWrite8 _ _ _).setReg16 _ _).setReg16 _ _) _
  case movsw =>
    exact repeated (primitive := State.movs16)
      ((((refl.memRead16 _ _).memWrite16 _ _ _).setReg16 _ _).setReg16 _ _) _
  case cmpsb =>
    have hread : Acts (mayOf .cmpsb) s _ := (refl.memRead8 s.srcSeg s.gpr.si).memRead8 s.seg.es s.gpr.di
    exact repeated (primitive := State.cmps8)
      (((hread.setFlags (status .cmpsb rfl (controlFlagsKept_sub _ _ _ _))).setReg16 _ _).setReg16 _ _) _
  case cmpsw =>
    have hread : Acts (mayOf .cmpsw) s _ := (refl.memRead16 s.srcSeg s.gpr.si).memRead16 s.seg.es s.gpr.di
    exact repeated (primitive := State.cmps16)
      (((hread.setFlags (status .cmpsw rfl (controlFlagsKept_sub _ _ _ _))).setReg16 _ _).setReg16 _ _) _
  case scasb =>
    exact repeated (primitive := State.scas8)
      (((refl.memRead8 _ _).setFlags (status .scasb rfl (controlFlagsKept_sub _ _ _ _))).setReg16 _ _) _
  case scasw =>
    exact repeated (primitive := State.scas16)
      (((refl.memRead16 _ _).setFlags (status .scasw rfl (controlFlagsKept_sub _ _ _ _))).setReg16 _ _) _
  case lodsb => exact repeated (primitive := State.lods8) (((refl.memRead8 _ _).setReg8 _ _).setReg16 _ _) _
  case lodsw => exact repeated (primitive := State.lods16) (((refl.memRead16 _ _).setReg16 _ _).setReg16 _ _) _
  case stosb => exact repeated (primitive := State.stos8) ((refl.memWrite8 _ _ _).setReg16 _ _) _
  case stosw => exact repeated (primitive := State.stos16) ((refl.memWrite16 _ _ _).setReg16 _ _) _
  case callNear rel => exact (refl.push16 _).jumpTo _
  case callInd e => exact ((refl.read16 _).push16 _).jumpTo _
  case callFar off seg => exact ((refl.push16 _).push16 _).farJumpTo rfl _ _
  case callFarInd p => exact (((refl.readPointer _).push16 _).push16 _).farJumpTo rfl _ _
  case retNear n => exact (refl.pop16.setReg16 _ _).jumpTo _
  case retFar n => exact (refl.pop16.pop16.setReg16 _ _).farJumpTo rfl _ _
  case jmpShort rel => exact refl.jumpTo _
  case jmpNear rel => exact refl.jumpTo _
  case jmpInd e => exact (refl.read16 _).jumpTo _
  case jmpFar off seg => exact refl.farJumpTo rfl _ _
  case jmpFarInd p => exact (refl.readPointer _).farJumpTo rfl _ _
  case loop rel => exact (refl.setReg16 _ _).jumpIf _ _
  case loope rel => exact (refl.setReg16 _ _).jumpIf _ _
  case loopne rel => exact (refl.setReg16 _ _).jumpIf _ _
  case int n => exact refl.interrupt rfl (.head _) (.tail _ (.head _)) _ _
  case int3 => exact refl.interrupt rfl (.head _) (.tail _ (.head _)) _ _
  case into =>
    refine (show Acts _ s (ite _ _ _) from ?_)
    split
    · exact refl.interrupt rfl (.head _) (.tail _ (.head _)) _ _
    · exact refl
  case iret => exact refl.interruptReturn rfl fun n => by cases n <;> decide
  case bound g p =>
    refine (show Acts _ s (ite _ _ _) from ?_)
    split
    · exact (refl.readPointer _).interrupt rfl (.head _) (.tail _ (.head _)) _ _
    · exact refl.readPointer _
  case enter locals level => exact (((refl.push16 _).enterDisplay _ _).setReg16 _ _).setReg16 _ _
  case leave => exact (refl.setReg16 _ _).pop16.setReg16 _ _
  case clc => exact refl.setFlags fun n hn => by cases n <;> first | rfl | exact absurd (by decide) hn
  case stc => exact refl.setFlags fun n hn => by cases n <;> first | rfl | exact absurd (by decide) hn
  case cmc => exact refl.setFlags fun n hn => by cases n <;> first | rfl | exact absurd (by decide) hn
  case cld => exact refl.setFlags fun n hn => by cases n <;> first | rfl | exact absurd (by decide) hn
  case std => exact refl.setFlags fun n hn => by cases n <;> first | rfl | exact absurd (by decide) hn
  case cli => exact refl.setFlags fun n hn => by cases n <;> first | rfl | exact absurd (by decide) hn
  case sti =>
    exact (refl.setFlags fun n hn => by cases n <;> first | rfl | exact absurd (by decide) hn).inhibit rfl _
  case hlt => exact refl.halt rfl
  case wait =>
    refine (show Acts _ s (ite _ _ _) from ?_)
    split
    · exact refl
    · exact refl.setIp _
  case esc op e =>
    refine (show Acts _ s (ite _ _ _) from ?_)
    split
    · exact refl.interrupt rfl (.head _) (.tail _ (.head _)) _ _
    · cases e
      case reg r => exact refl
      case mem p => exact refl.memRead16 _ _
  case nop => exact refl
  case rep => exact refl.setLatches _
  case repne => exact refl.setLatches _
  case lock => exact refl.setLatches _
  case segEs => exact refl.setLatches _
  case segCs => exact refl.setLatches _
  case segSs => exact refl.setLatches _
  case segDs => exact refl.setLatches _
  case unused u => trivial
  all_goals exact refl.jumpIf _ _

end Sys2Proof.Machine
end

section
/-! PROOF. Rules over all instructions and over a step: O58, O59, O60, O18, O7, O6. -/

namespace Sys2Proof.Machine

/-! ### One instruction -/

theorem exec_acts {i : Instr} {s t : State} (h : exec i s = .next t) : Acts (mayOf i) s t := by
  have hdoes := exec_doesUnder i s
  rwa [h] at hdoes

/-- Settles O58: the permission to write CS is the list of the statement. -/
theorem onlyFarTransfersWriteCs : Obligations.OnlyFarTransfersWriteCs :=
  fun _ _ _ hi h => (exec_acts h).cs_eq hi

/-- Settles O59: the flags an instruction may change are the table's. -/
theorem flagsOutsideTheTableAreKept : Obligations.FlagsOutsideTheTableAreKept :=
  fun _ _ _ _ hf h => (exec_acts h).flag_eq hf

/-- Settles O60: without a port instruction the environment is touched by device accesses only. -/
theorem onlyPortInstructionsAreSeen : Obligations.OnlyPortInstructionsAreSeen :=
  fun _ _ _ hi hd h => (exec_acts h).env_eq hi hd

/-! ### The items of an instruction -/

/-- What every item keeps, the run of all items keeps. -/
theorem runItems_keeps {P : State → Prop} {items : List Instr} {s t : State}
    (hstep : ∀ i ∈ items, ∀ u v, P u → exec i u = .next v → P v) (h : runItems items s = .next t) (hs : P s) : P t := by
  induction items generalizing s with
  | nil =>
    cases h
    exact hs
  | cons i rest ih =>
    cases hi : exec i s with
    | next u =>
      refine ih (fun j hj => hstep j (List.mem_cons_of_mem i hj)) ?_ (hstep i List.mem_cons_self s u hs hi)
      simpa only [runItems, hi] using h
    | fault r => simp [runItems, hi] at h
    | refused r => simp [runItems, hi] at h

theorem runItems_inhibit {items : List Instr} {s t : State} (hi : ∀ i ∈ items, mayInhibit i = false)
    (h : runItems items s = .next t) (hs : s.inhibit = .none) : t.inhibit = .none :=
  runItems_keeps (P := fun u => u.inhibit = .none)
    (fun i hmem _ _ hu he => (exec_acts he).inhibit_eq_none (hi i hmem) hu) h hs

theorem runItems_halted {items : List Instr} {s t : State} (hi : ∀ i ∈ items, i ≠ .hlt)
    (h : runItems items s = .next t) (hs : s.halted = false) : t.halted = false :=
  runItems_keeps (P := fun u => u.halted = false)
    (fun i hmem _ _ hu he => (exec_acts he).halted_eq_false (decide_eq_false (hi i hmem)) hu) h hs

theorem runItems_memoryWf {items : List Instr} {s t : State} (h : runItems items s = .next t) (hs : s.memoryWf) :
    t.memoryWf :=
  runItems_keeps (P := State.memoryWf) (fun _ _ _ _ hu he => (exec_acts he).memoryWf hu) h hs

theorem runItems_append_singleton {ps : List Instr} {i : Instr} {s t : State}
    (h : runItems (ps ++ [i]) s = .next t) : ∃ u, runItems ps s = .next u ∧ exec i u = .next t := by
  induction ps generalizing s with
  | nil =>
    refine ⟨s, rfl, ?_⟩
    cases hi : exec i s <;> simp_all [runItems]
  | cons p ps ih =>
    cases hp : exec p s with
    | next u =>
      simp only [List.cons_append, runItems, hp] at h ⊢
      exact ih h
    | fault r => simp [runItems, hp] at h
    | refused r => simp [runItems, hp] at h

/-- The items of an instruction are prefixes before one body. -/
theorem decodeItems_eq_append {seen : List PrefixClass} {bs rest : List Byte} {items : List Instr}
    (h : decodeItems seen bs = .ok (items, rest)) :
    ∃ ps i, items = ps ++ [i] ∧ ∀ p ∈ ps, (prefixItem p).isSome = true := by
  induction bs generalizing seen items with
  | nil => simp [decodeItems] at h
  | cons b bs ih =>
    rw [decodeItems] at h
    cases hc : prefixClass b with
    | none =>
      simp only [hc] at h
      split at h
      · cases h
      · split at h
        · cases h
          exact ⟨[], _, rfl, by simp⟩
        · cases h
    | some c =>
      obtain ⟨p, hdec, hp⟩ := opcodeDecoder_of_prefixClass hc
      simp only [hc, decodeItem, hdec, noMore] at h
      split at h
      · cases h
      · split at h
        · next heq hrest =>
          cases heq
          cases h
          obtain ⟨ps, i, rfl, hps⟩ := ih hrest
          exact ⟨p :: ps, i, rfl, List.forall_mem_cons.mpr ⟨by simp [hp], hps⟩⟩
        · next heq => cases heq
        · cases h

theorem decodeInstruction_eq_append {bs : List Byte} {d : Decoded} (h : decodeInstruction bs = .ok d) :
    ∃ ps i, d.items = ps ++ [i] ∧ ∀ p ∈ ps, (prefixItem p).isSome = true := by
  rw [decodeInstruction] at h
  split at h
  · next hitems =>
    cases h
    exact decodeItems_eq_append hitems
  · cases h

theorem mayInhibit_of_prefixItem {p : Instr} (h : (prefixItem p).isSome = true) : mayInhibit p = false := by
  cases p <;> first | rfl | exact absurd h (by simp [prefixItem])

theorem ne_hlt_of_prefixItem {p : Instr} (h : (prefixItem p).isSome = true) : p ≠ .hlt := by
  rintro rfl
  cases h

/-- After the items of an instruction the core is not halted or not inhibited. -/
theorem runItems_halted_or_inhibit {bs : List Byte} {d : Decoded} {s t : State} (hd : decodeInstruction bs = .ok d)
    (h : runItems d.items s = .next t) (hhalt : s.halted = false) (hinh : s.inhibit = .none) :
    t.halted = false ∨ t.inhibit = .none := by
  obtain ⟨ps, i, heq, hps⟩ := decodeInstruction_eq_append hd
  rw [heq] at h
  obtain ⟨u, hu, hi⟩ := runItems_append_singleton h
  by_cases hhlt : i = .hlt
  · refine .inr ((exec_acts hi).inhibit_eq_none (by rw [hhlt]; rfl) ?_)
    exact runItems_inhibit (fun p hp => mayInhibit_of_prefixItem (hps p hp)) hu hinh
  · refine .inl ((exec_acts hi).halted_eq_false (decide_eq_false hhlt) ?_)
    exact runItems_halted (fun p hp => ne_hlt_of_prefixItem (hps p hp)) hu hhalt

/-! ### A step, part by part -/

/-- What a step that answers a state has done. -/
inductive StepDid (s : State) : State → Prop
  | reset : StepDid s s.resetEvent.advanceEnv
  | external (n : Byte) : StepDid s (s.takeExternal n).advanceEnv
  | waited (h : s.halted = true) : StepDid s s.advanceEnv
  | ran (hh : s.halted = false) {d : Decoded} {u : State} (hd : decodeInstruction s.fetchWindow = .ok d)
      (hu : runItems d.items (s.begin d.length) = .next u) :
      StepDid s (u.endInstruction ((s.begin d.length).stepsAfter d.items))

theorem instructionStep_did {s t : State} (hh : s.halted = false) (h : s.instructionStep = .next t) : StepDid s t := by
  unfold State.instructionStep State.fetch at h
  cases hd : decodeInstruction s.fetchWindow with
  | error e => simp [hd] at h
  | ok d =>
    cases hst : s.staleFetch d.length with
    | true => simp [hd, hst] at h
    | false =>
      cases hu : runItems d.items (s.begin d.length) with
      | next u =>
        simp only [hd, hst, Bool.false_eq_true, if_false, hu, Host.Outcome.next.injEq] at h
        exact h ▸ .ran hh hd hu
      | fault r => simp [hd, hst, hu] at h
      | refused r => simp [hd, hst, hu] at h

theorem step_did {s t : State} (h : step s = .next t) : StepDid s t := by
  unfold step at h
  split at h
  · rw [← Host.Outcome.next.inj h]
    exact .reset
  · split at h
    · rw [← Host.Outcome.next.inj h]
      exact .external _
    · split at h
      · next hh =>
        rw [← Host.Outcome.next.inj h]
        exact .waited hh
      · next hh => exact instructionStep_did (Bool.eq_false_iff.mpr hh) h

theorem State.advanceEnv_eq (s : State) : ∃ e, s.advanceEnv = s.setEnv e := by
  unfold State.advanceEnv
  split
  · exact ⟨s.env, rfl⟩
  · exact ⟨_, rfl⟩

theorem State.advanceEnv_inhibit (s : State) : s.advanceEnv.inhibit = s.inhibit := by
  obtain ⟨e, he⟩ := s.advanceEnv_eq
  rw [he]
  rfl

/-- The environment is not in the invariant. -/
theorem State.advanceEnv_wf {s : State} (h : s.wf) : s.advanceEnv.wf := by
  obtain ⟨e, he⟩ := s.advanceEnv_eq
  rw [he]
  exact h

/-! ### The inhibit -/

theorem State.interrupt_inhibit (s : State) (n : Byte) (ret : Word) : (s.interrupt n ret).inhibit = .none := rfl

theorem State.interrupt_latches (s : State) (n : Byte) (ret : Word) : (s.interrupt n ret).latches = s.latches := by
  simp [State.interrupt, State.pushFlags, State.flagsWord, State.farJumpTo]

/-- The end of an instruction adds no inhibit. -/
theorem State.endInstruction_inhibit {s : State} (h : s.inhibit = .none) (b : Bool) :
    (s.endInstruction b).inhibit = .none := by
  dsimp only [State.endInstruction]
  split
  · unfold State.singleStep
    split
    · rfl
    · split <;> rfl
  · rwa [State.advanceEnv_inhibit]

theorem mayInhibit_eq_false {i : Instr} (h : i ≠ .sti ∧ (∀ r e, i ≠ .movToSeg r e) ∧ ∀ r, i ≠ .popSeg r) :
    mayInhibit i = false := by
  obtain ⟨hsti, hmov, hpop⟩ := h
  cases i
  case sti => exact absurd rfl hsti
  case movToSeg r e => exact absurd rfl (hmov r e)
  case popSeg r => exact absurd rfl (hpop r)
  all_goals rfl

/-- Settles O18: the instruction begins without an inhibit, and none of its items sets one. -/
theorem inhibitLastsOneInstruction : Obligations.InhibitLastsOneInstruction := by
  intro s t d hh hd hstep hitems
  cases step_did hstep with
  | reset => exact State.advanceEnv_inhibit _
  | external n => exact State.advanceEnv_inhibit _
  | waited h => simp [hh] at h
  | ran _ hd' hu =>
    cases hd.symm.trans hd'
    exact State.endInstruction_inhibit (runItems_inhibit (fun i hi => mayInhibit_eq_false (hitems i hi)) hu rfl) _

/-! ### The invariant -/

/-- Settles O5. -/
theorem resetState : Obligations.ResetState := ⟨rfl, rfl, rfl, rfl, rfl, rfl, rfl⟩

/-- Settles O6. -/
theorem resetIsWellFormed : Obligations.ResetIsWellFormed :=
  ⟨rfl, rfl, fun _ ha => absurd ha List.not_mem_nil, fun _ => rfl⟩

theorem State.wf.memoryWf {s : State} (h : s.wf) : s.memoryWf := by
  obtain ⟨hmem, -, hstored, -⟩ := h
  exact ⟨hmem, hstored⟩

theorem State.memoryWf.wf {s : State} (h : s.memoryWf) (hl : s.latches = Latches.idle)
    (hi : s.halted = false ∨ s.inhibit = .none) : s.wf :=
  ⟨h.1, hl, h.2, fun hh => hi.resolve_left (by simp [hh])⟩

/-- An interrupt leads to a well-formed state. -/
theorem State.interrupt_wf {s : State} (h : s.memoryWf) (hl : s.latches = Latches.idle) (n : Byte) (ret : Word) :
    (s.interrupt n ret).wf := by
  have hacts : Acts (mayOf .int3) s (s.interrupt n ret) :=
    Acts.refl.interrupt rfl (.head _) (.tail _ (.head _)) n ret
  exact (hacts.memoryWf h).wf ((s.interrupt_latches n ret).trans hl) (.inr (s.interrupt_inhibit n ret))

theorem State.singleStep_wf {s : State} (h : s.wf) : s.singleStep.wf := by
  have hl : s.latches = Latches.idle := h.2.1
  have htrap : ∀ {u : State}, u.wf → u.trapStep.wf := fun hu => State.interrupt_wf hu.memoryWf hu.2.1 _ _
  unfold State.singleStep
  split
  · exact htrap h
  · split
    · exact htrap h
    · exact htrap (State.interrupt_wf (s := s.acknowledge) h.memoryWf hl _ _)

/-- The end of an instruction clears the latches; the rest of the invariant is what the items have to keep. -/
theorem State.endInstruction_wf {s : State} (h : s.memoryWf) (hi : s.halted = false ∨ s.inhibit = .none) (b : Bool) :
    (s.endInstruction b).wf := by
  have hend : (s.setLatches Latches.idle).advanceEnv.wf :=
    State.advanceEnv_wf (State.memoryWf.wf (s := s.setLatches Latches.idle) h rfl hi)
  dsimp only [State.endInstruction]
  split
  · exact State.singleStep_wf hend
  · exact hend

theorem State.begin_memoryWf {s : State} (h : s.memoryWf) (n : Nat) : (s.begin n).memoryWf := by
  simpa [State.memoryWf, State.begin] using h

/-- Settles O7, by the inversion of a step. -/
theorem stepKeepsWellFormed : Obligations.StepKeepsWellFormed := by
  intro s t hs hstep
  cases step_did hstep with
  | reset => exact State.advanceEnv_wf (State.memoryWf.wf ⟨hs.1, fun a ha => absurd ha List.not_mem_nil⟩ rfl (.inl rfl))
  | external n => exact State.advanceEnv_wf (State.interrupt_wf (s := s.acknowledge) hs.memoryWf hs.2.1 _ _)
  | waited h => exact State.advanceEnv_wf hs
  | ran hh hd hu =>
    refine State.endInstruction_wf (runItems_memoryWf hu (State.begin_memoryWf hs.memoryWf _)) ?_ _
    exact runItems_halted_or_inhibit hd hu (by simpa [State.begin] using hh) rfl

end Sys2Proof.Machine
end

section
/-! PROOF. What a step does before and around an instruction: O8, O9, O10, O11, O12, O17. -/

namespace Sys2Proof

/-! ### How long an encoding is -/

theorem length_encodeMem_le (reg : BitVec 3) (m : Mem) : (encodeMem reg m).length ≤ 3 := by
  cases m <;> simp [encodeMem]

theorem length_encodeRM_le (reg : BitVec 3) (e : RM (BitVec 3)) : (encodeRM reg e).length ≤ 3 := by
  cases e with
  | reg r => simp [encodeRM]
  | mem m => exact length_encodeMem_le reg m

theorem length_encodeEb_le (reg : BitVec 3) (e : RM Reg8) : (encodeEb reg e).length ≤ 3 := length_encodeRM_le _ _

theorem length_encodeEv_le (reg : BitVec 3) (e : RM Reg16) : (encodeEv reg e).length ≤ 3 := length_encodeRM_le _ _

theorem length_encodeWord (w : Word) : (encodeWord w).length = 2 := rfl

theorem length_encodeAlu_le (n : BitVec 3) (f : AluForm) : (encodeAlu n f).length ≤ 6 := by
  have hb := length_encodeEb_le
  have hv := length_encodeEv_le
  cases f <;> simp only [encodeAlu, List.length_cons, List.length_append, length_encodeWord, List.length_nil] <;> grind

theorem length_encodeRmForm_le (opc : Byte) (digit : BitVec 3) (f : RmForm) :
    (encodeRmForm opc digit f).length ≤ 4 := by
  cases f with
  | eb e => exact Nat.succ_le_succ (length_encodeEb_le digit e)
  | ev e => exact Nat.succ_le_succ (length_encodeEv_le digit e)

theorem length_encodeShift_le (digit : BitVec 3) (f : RmForm) (c : Count) : (encodeShift digit f c).length ≤ 6 := by
  have h := length_encodeRmForm_le
  cases c <;> simp only [encodeShift, List.length_append, List.length_cons, List.length_nil] <;> grind

theorem length_encodeInc_le (digit : BitVec 3) (f : IncForm) : (encodeInc digit f).length ≤ 6 := by
  have hb := length_encodeEb_le
  have hv := length_encodeEv_le
  cases f <;> simp only [encodeInc, List.length_cons, List.length_nil] <;> grind

theorem length_encodeMov_le (f : MovForm) : (encodeMov f).length ≤ 6 := by
  have hb := length_encodeEb_le
  have hv := length_encodeEv_le
  cases f <;> simp only [encodeMov, List.length_cons, List.length_append, length_encodeWord, List.length_nil] <;> grind

theorem length_encodeTest_le (f : TestForm) : (encodeTest f).length ≤ 6 := by
  have hb := length_encodeEb_le
  have hv := length_encodeEv_le
  cases f <;> simp only [encodeTest, List.length_cons, List.length_append, length_encodeWord, List.length_nil] <;> grind

/-- No instruction is longer than six bytes (30_encoding.md R103). -/
theorem length_encode_le (i : Instr) : (encode i).length ≤ 6 := by
  have hm := length_encodeMem_le
  have hb := length_encodeEb_le
  have hv := length_encodeEv_le
  have hrm := length_encodeRmForm_le
  cases i
  case mov f => exact length_encodeMov_le f
  case test f => exact length_encodeTest_le f
  case add f => exact length_encodeAlu_le _ f
  case adc f => exact length_encodeAlu_le _ f
  case sub f => exact length_encodeAlu_le _ f
  case sbb f => exact length_encodeAlu_le _ f
  case cmp f => exact length_encodeAlu_le _ f
  case and f => exact length_encodeAlu_le _ f
  case or f => exact length_encodeAlu_le _ f
  case xor f => exact length_encodeAlu_le _ f
  case inc f => exact length_encodeInc_le _ f
  case dec f => exact length_encodeInc_le _ f
  case shl f c => exact length_encodeShift_le _ f c
  case shr f c => exact length_encodeShift_le _ f c
  case sar f c => exact length_encodeShift_le _ f c
  case rol f c => exact length_encodeShift_le _ f c
  case ror f c => exact length_encodeShift_le _ f c
  case rcl f c => exact length_encodeShift_le _ f c
  case rcr f c => exact length_encodeShift_le _ f c
  case pushImm f => cases f <;> simp [encode, encodeWord]
  case xchg f => cases f <;> simp only [encode, List.length_cons, List.length_nil] <;> grind
  case inAcc f => cases f <;> simp [encode, encodePort]
  case outAcc f => cases f <;> simp [encode, encodePort]
  case imulImm g e f =>
    cases f <;> simp only [encode, List.length_cons, List.length_append, length_encodeWord, List.length_nil] <;> grind
  case retNear p => cases p <;> simp [encode, encodeRet, encodeWord]
  case retFar p => cases p <;> simp [encode, encodeRet, encodeWord]
  case unused u => cases u <;> simp [encode]
  all_goals
    simp only [encode, List.length_cons, List.length_append, length_encodeWord, List.length_nil]
    grind

namespace Machine

/-! ### The fetch -/

/-- In plain memory a fetch reads the bytes and changes nothing. -/
theorem State.fetchBytes_plain {s : State} (h : s.devices = []) (seg off : Word) (k n : Nat) :
    s.fetchBytes seg off k n = ((List.range' k n).map fun j => Memory.read s.mem (byteAddr seg off j), s) := by
  induction n generalizing k with
  | zero => rfl
  | succ n ih => simp [State.fetchBytes, State.readByte_plain (State.isDevice_nil h _), ih, List.range'_succ]

theorem State.begin_plain {s : State} (h : s.devices = []) (n : Nat) :
    s.begin n =
      { s with
        ip := s.ip + BitVec.ofNat 16 n, inhibit := .none,
        latches := { override := none, rep := none, lock := false, start := s.ip } } := by
  rw [State.begin, State.fetchBytes_plain h]
  rfl

/-- The window begins with bytes that stand at CS:IP. -/
theorem State.fetchWindow_eq_append {s : State} (h : s.devices = []) {bs : List Byte}
    (hlen : bs.length ≤ maxInstructionBytes)
    (hbs : ∀ k, k < bs.length → Memory.read s.mem (byteAddr s.seg.cs s.ip k) = bs.getD k 0) :
    ∃ rest, s.fetchWindow = bs ++ rest := by
  have hprefix : bs <+: s.fetchWindow := by
    rw [List.prefix_iff_getElem?]
    intro k hk
    simp [State.fetchWindow, State.fetchBytes_plain h, hk.trans_le hlen, hbs k hk, hk]
  obtain ⟨rest, hrest⟩ := hprefix
  exact ⟨rest, hrest.symm⟩

/-! ### What goes before an instruction -/

theorem step_of_reset {s : State} (h : s.env.resetLine = true) : step s = .next s.resetEvent.advanceEnv := by
  simp [step, h]

theorem step_of_request {s : State} (hr : s.env.resetLine = false) {n : Byte} (h : s.request = some n) :
    step s = .next (s.takeExternal n).advanceEnv := by
  simp [step, hr, h]

theorem step_of_halted {s : State} (hr : s.env.resetLine = false) (hq : s.request = none) (h : s.halted = true) :
    step s = .next s.advanceEnv := by
  simp [step, hr, hq, h]

theorem step_of_running {s : State} (hr : s.env.resetLine = false) (hq : s.request = none) (h : s.halted = false) :
    step s = s.instructionStep := by
  simp [step, hr, hq, h]

/-- The end of an instruction, where the items leave a state. -/
def endOutcome (stepped : Bool) : Host.Outcome State Fault Refusal → Host.Outcome State Fault Refusal
  | .next t => .next (t.endInstruction stepped)
  | .fault r => .fault r
  | .refused r => .refused r

/-- A step at fresh bytes that decode. -/
theorem instructionStep_of_decoded {s : State} {d : Decoded} (hd : decodeInstruction s.fetchWindow = .ok d)
    (hf : s.freshFetch d.length) :
    s.instructionStep =
      endOutcome ((s.begin d.length).stepsAfter d.items) (runItems d.items (s.begin d.length)) := by
  have hst := (State.staleFetch_eq_false_iff s d.length).mpr hf
  have hfetch : s.fetch = .ok (d.items, s.begin d.length) := by
    simp [State.fetch, hd, hst]
  simp only [State.instructionStep, hfetch]
  cases runItems d.items (s.begin d.length) <;> rfl

theorem runItems_singleton (i : Instr) (s : State) : runItems [i] s = exec i s := by
  unfold runItems
  cases exec i s <;> rfl

theorem State.advanceEnv_of_noInput {s : State} (h : s.env.inputs = []) : s.advanceEnv = s := by
  simp [State.advanceEnv, h]

/-- Settles O8. -/
theorem stepRunsDecodedInstruction : Obligations.StepRunsDecodedInstruction := by
  refine ⟨fun s hr hq hh => ?_, fun _ => rfl, fun t => State.advanceEnv_of_noInput⟩
  rw [step_of_running hr hq hh]
  refine ⟨fun e he => ?_, fun d hd => ⟨fun hf => ?_, fun hf => ?_, fun i hi => ?_, fun hdev => ?_⟩⟩
  · simp [State.instructionStep, State.fetch, he]
  · have hst : s.staleFetch d.length = true := by
      rwa [← Bool.not_eq_false, State.staleFetch_eq_false_iff]
    simp [State.instructionStep, State.fetch, hd, hst]
  · rw [instructionStep_of_decoded hd hf]
    cases runItems d.items (s.begin d.length) <;> rfl
  · rw [hi, runItems_singleton]
    cases exec i (s.begin d.length) <;> rfl
  · exact State.begin_plain hdev _

/-- `wait` is the decoder's name of itself only. -/
theorem canonical_eq_wait_iff (i : Instr) : canonical i = .wait ↔ i = .wait := by
  cases i <;> simp [canonical]

/-- Settles O9: the window begins with the encoding, which decodes to the instruction alone (O4). -/
theorem stepRunsEncodedInstruction : Obligations.StepRunsEncodedInstruction := by
  intro s i hw hi hdev hr hq hh hbytes hfresh
  obtain ⟨rest, hwin⟩ := State.fetchWindow_eq_append hdev ((length_encode_le i).trans (by decide)) hbytes
  have hd : decodeInstruction s.fetchWindow = .ok { items := [canonical i], length := (encode i).length } := by
    have hdec := (prefixesPrecedeTheBody [] rest (by simp) (by simp)).1 i hi hw
    simpa [hwin] using hdec
  have hsteps : (s.begin (encode i).length).stepsAfter [canonical i]
      = (s.flags.tf && !(decide (i = .wait) && !s.env.testLine)) := by
    rw [State.begin_plain hdev]
    simp [State.stepsAfter, State.waiting, canonical_eq_wait_iff]
  rw [step_of_running hr hq hh, instructionStep_of_decoded hd hfresh]
  dsimp only
  rw [runItems_singleton, hsteps, State.begin_plain hdev]
  cases exec (canonical i) _ <;> rfl

/-! ### Waiting -/

theorem State.request_of_final {s : State} (h : s.final) : s.request = none := by
  obtain ⟨-, hif, hnmi⟩ := h
  simp [State.request, State.maskableRequest, hif, hnmi]

theorem State.advanceEnv_quiet {s : State} (h : s.env.quiet) : s.advanceEnv.env.quiet := by
  obtain ⟨hnmi, hreset, hinputs⟩ := h
  unfold State.advanceEnv
  cases hin : s.env.inputs with
  | nil => exact ⟨hnmi, hreset, hinputs⟩
  | cons i rest =>
    rw [hin] at hinputs
    obtain ⟨⟨hi, hr⟩, hrest⟩ := List.forall_mem_cons.mp hinputs
    exact ⟨by simp [hnmi, hi], hr, hrest⟩

/-- The next input keeps a final state final if it is no NMI. -/
theorem State.advanceEnv_final {s : State} (h : s.final) (hq : s.env.quiet) : s.advanceEnv.final := by
  obtain ⟨hh, hif, -⟩ := h
  have hnmi := (State.advanceEnv_quiet hq).1
  obtain ⟨e, he⟩ := s.advanceEnv_eq
  rw [he] at hnmi ⊢
  exact ⟨hh, hif, hnmi⟩

theorem step_of_final {s : State} (h : s.final) (hq : s.env.quiet) : step s = .next s.advanceEnv :=
  step_of_halted hq.2.1 (State.request_of_final h) h.1

theorem runsTo_succ {s t u : State} {n : Nat} (h : step s = .next u) (hr : runsTo u n t) : runsTo s (n + 1) t := by
  simpa [runsTo, Host.Core.run, Sys2Proof.core, h] using hr

/-- Settles O10, by induction on the number of steps. -/
theorem haltedCoreWaits : Obligations.HaltedCoreWaits := by
  refine ⟨fun s => step_of_halted, fun n => ?_⟩
  induction n with
  | zero => exact fun s hs hq => ⟨s, rfl, hs, hq, rfl, rfl, rfl, rfl, rfl⟩
  | succ n ih =>
    intro s hs hq
    obtain ⟨t, hrun, hfinal, hquiet, hkept⟩ :=
      ih s.advanceEnv (State.advanceEnv_final hs hq) (State.advanceEnv_quiet hq)
    obtain ⟨e, he⟩ := s.advanceEnv_eq
    rw [he] at hkept
    exact ⟨t, runsTo_succ (step_of_final hs hq) hrun, hfinal, hquiet, hkept⟩

/-! ### Reset and external interrupts -/

/-- Settles O11. -/
theorem resetLineRestarts : Obligations.ResetLineRestarts := by
  intro s hr
  obtain ⟨e, he⟩ := s.resetEvent.advanceEnv_eq
  refine ⟨_, step_of_reset hr, ?_⟩
  have hnmi : s.env.inputs = [] → s.resetEvent.advanceEnv.env.nmiPending = false := fun hin => by
    rw [State.advanceEnv_of_noInput (s := s.resetEvent) hin]
    rfl
  refine ⟨?_, ?_, ?_, ?_, ?_, ?_, ?_, hnmi⟩
  all_goals rw [he]
  any_goals rfl
  exact fun x => rfl

/-- Settles O12: the cases of the recognition. -/
theorem externalInterruptsAreRecognised : Obligations.ExternalInterruptsAreRecognised := by
  intro s hr
  refine ⟨fun hnmi hinh => ?_, fun n hnmi hline hif hinh => ?_, fun h => ?_⟩
  · exact step_of_request hr (by simp [State.request, hnmi, hinh])
  · have hack : s.acknowledge = s := by
      rw [State.acknowledge, ← hnmi]
      rfl
    rw [step_of_request hr (n := n) (by simp [State.request, State.maskableRequest, hnmi, hline, hif, hinh]),
      State.takeExternal, hack]
  · have hnone : s.request = none := by
      rcases h with hall | ⟨hnmi, hline | hif | hinh⟩
      · simp [State.request, hall]
      · simp [State.request, State.maskableRequest, hnmi, hline]
      · simp [State.request, State.maskableRequest, hnmi, hif]
      · simp [State.request, State.maskableRequest, hnmi, hinh]
    simp only [step, hr, hnone, Bool.false_eq_true, if_false]

/-! ### The single-step interrupt -/

/-- The fetch may read device windows, but the lines stay. -/
theorem State.begin_testLine (s : State) (n : Nat) : (s.begin n).env.testLine = s.env.testLine := by
  obtain ⟨-, -, hlines⟩ := Quiet.fetchBytes s s.seg.cs s.ip 0 n
  exact hlines.2.2.1

theorem State.begin_stepsAfter_eq_true_iff (s : State) (n : Nat) (items : List Instr) :
    (s.begin n).stepsAfter items = true ↔
      s.flags.tf = true ∧ (items.getLast? ≠ some .wait ∨ (s.begin n).env.testLine = true) := by
  simp [State.stepsAfter, State.waiting, State.begin]

/-- Settles O17. -/
theorem singleStepInterrupt : Obligations.SingleStepInterrupt := by
  intro s u d hr hq hh hd hf hu
  have htest := s.begin_testLine d.length
  have hstep : step s = .next (u.endInstruction ((s.begin d.length).stepsAfter d.items)) := by
    rw [step_of_running hr hq hh, instructionStep_of_decoded hd hf, hu, endOutcome]
  refine ⟨_, rfl, fun h => ?_, fun hreset htf hinh hwait => ?_⟩
  · rw [hstep, State.endInstruction_quiet]
    · rfl
    · rcases h with htf | hinh | hwait | hreset
      · exact .inl (by simp [State.stepsAfter, State.begin, htf])
      · exact .inr (.inl hinh)
      · exact .inl (by simp [State.stepsAfter, State.waiting, htest, hwait])
      · exact .inr (.inr hreset)
  · have hends : step s = .next ({ u with latches := Latches.idle } : State).advanceEnv.singleStep := by
      have hstepped : (s.begin d.length).stepsAfter d.items = true := by
        rw [State.begin_stepsAfter_eq_true_iff, htest]
        exact ⟨htf, hwait⟩
      rw [hstep, hstepped, State.endInstruction_stepped hinh hreset]
      rfl
    rw [hends]
    refine ⟨fun hnone => by simp [State.singleStep, hnone, State.trapStep], fun n hn => ⟨fun hp => ?_, fun hp => ?_⟩⟩
    · simp [State.singleStep, hn, hp, State.trapStep]
    · refine ⟨_, rfl, ?_⟩
      simp only [State.singleStep, hn, hp, State.trapStep, State.takeExternal, State.acknowledge]
      rfl

end Machine
end Sys2Proof
end

section
/-! PROOF. States that differ from an earlier one in the general registers and the flags alone: the frame of the
instructions that compute in registers. -/

namespace Sys2Proof.Machine

/-! ### Register-only changes -/

/-- Only general registers, flags, draws and what the environment has listed may differ. -/
def RegsOnly (s t : State) : Prop := t.mem = s.mem ∧ sameRest s t

theorem Quiet.regsOnly {s t : State} (h : Quiet s t) : RegsOnly s t := ⟨h.2.1.2.2.1, h.sameRest⟩

namespace RegsOnly

variable {s t : State}

theorem memKept (h : RegsOnly s t) : memKept s t := fun x => by rw [h.1]

theorem sameRest (h : RegsOnly s t) : sameRest s t := h.2

theorem ip (h : RegsOnly s t) : t.ip = s.ip := by
  obtain ⟨-, -, hip, -⟩ := h
  exact hip

theorem latches (h : RegsOnly s t) : t.latches = s.latches := by
  obtain ⟨-, -, -, -, -, hlatches, -⟩ := h
  exact hlatches

theorem setGpr (h : RegsOnly s t) (g : Gpr) : RegsOnly s (t.setGpr g) :=
  ⟨h.1, sameRest_trans h.2 (sameRest_setGpr t g)⟩

theorem setReg16 (h : RegsOnly s t) (r : Reg16) (v : Word) : RegsOnly s (t.setReg16 r v) := h.setGpr _

theorem setReg8 (h : RegsOnly s t) (r : Reg8) (v : Byte) : RegsOnly s (t.setReg8 r v) := h.setGpr _

theorem setFlags (h : RegsOnly s t) (f : Flags) : RegsOnly s (t.setFlags f) :=
  ⟨h.1, sameRest_trans h.2 (sameRest_setFlags t f)⟩

theorem draw (h : RegsOnly s t) : RegsOnly s t.draw.2 := ⟨h.1, sameRest_trans h.2 (sameRest_draw t)⟩

end RegsOnly

/-! ### Registers outside a list -/

theorem gprKept_of_eq {s t : State} (h : t.gpr = s.gpr) (written : List Reg16) : gprKept s t written := fun r _ => by
  rw [State.reg16, h, State.reg16]

theorem gprKept.setReg16 {s t : State} {written : List Reg16} (h : gprKept s t written) {r : Reg16}
    (hr : r ∈ written) (v : Word) : gprKept s (t.setReg16 r v) written := by
  intro q hq
  have hne : q ≠ r := fun e => hq (e ▸ hr)
  rw [State.reg16_setReg16, if_neg hne, h q hq]

/-! ### The halves of words and double words -/

theorem toNat_wordOf (lo hi : Byte) : (wordOf lo hi).toNat = hi.toNat * 256 + lo.toNat := by
  rw [wordOf, BitVec.toNat_append, ← Nat.shiftLeft_add_eq_or_of_lt lo.isLt, Nat.shiftLeft_eq]

theorem toNat_loByte (w : Word) : (loByte w).toNat = w.toNat % 256 := by
  simp [loByte, BitVec.extractLsb'_toNat]

theorem toNat_hiByte (w : Word) : (hiByte w).toNat = w.toNat / 256 := by
  have hw := w.isLt
  rw [hiByte, BitVec.extractLsb'_toNat, Nat.shiftRight_eq_div_pow]
  omega

theorem toNat_loWord (p : BitVec 32) : (p.extractLsb' 0 16).toNat = p.toNat % 65536 := by
  simp [BitVec.extractLsb'_toNat]

theorem toNat_hiWord (p : BitVec 32) : (p.extractLsb' 16 16).toNat = p.toNat / 65536 := by
  have hp := p.isLt
  rw [BitVec.extractLsb'_toNat, Nat.shiftRight_eq_div_pow]
  omega

/-- DX:AX as an unsigned number. -/
theorem State.toNat_dxAx (s : State) : s.dxAx.toNat = s.gpr.dx.toNat * 65536 + s.gpr.ax.toNat := by
  rw [State.dxAx, BitVec.toNat_append, ← Nat.shiftLeft_add_eq_or_of_lt s.gpr.ax.isLt, Nat.shiftLeft_eq]

/-- DX:AX as a signed number. -/
theorem State.toInt_dxAx (s : State) : s.dxAx.toInt = s.gpr.dx.toInt * 65536 + s.gpr.ax.toNat := by
  have hax := s.gpr.ax.isLt
  have hdx := s.gpr.dx.isLt
  rw [BitVec.toInt_eq_toNat_cond, BitVec.toInt_eq_toNat_cond, State.toNat_dxAx]
  split <;> split <;> omega

theorem State.reg8_al (s : State) : s.reg8 .al = loByte s.gpr.ax := rfl

theorem State.reg8_ah (s : State) : s.reg8 .ah = hiByte s.gpr.ax := rfl

end Sys2Proof.Machine
end

section
/-! PROOF. The interrupt sequence, IRET, BOUND, and the divisions: O20, O13, O14, O15, O52, O16, O34. -/

namespace Sys2Proof.Machine

/-! ### The FLAGS word -/

/-- Every flag stands in its place in the image, and the places of no flag are 0. -/
theorem Flags.getLsbD_image (f : Flags) :
    (f.image.getLsbD 0 = f.cf ∧ f.image.getLsbD 2 = f.pf ∧ f.image.getLsbD 4 = f.af ∧ f.image.getLsbD 6 = f.zf
      ∧ f.image.getLsbD 7 = f.sf ∧ f.image.getLsbD 8 = f.tf ∧ f.image.getLsbD 9 = f.ifl
      ∧ f.image.getLsbD 10 = f.df ∧ f.image.getLsbD 11 = f.ofl)
    ∧ ∀ k ∈ [1, 3, 5, 12, 13, 14, 15], f.image.getLsbD k = false := by
  have hsum := f.toNat_image
  have hcf := f.cf.toNat_le
  have hpf := f.pf.toNat_le
  have haf := f.af.toNat_le
  have hzf := f.zf.toNat_le
  have hsf := f.sf.toNat_le
  have htf := f.tf.toNat_le
  have hifl := f.ifl.toNat_le
  have hdf := f.df.toNat_le
  have hofl := f.ofl.toNat_le
  refine ⟨⟨?cf, ?pf, ?af, ?zf, ?sf, ?tf, ?ifl, ?df, ?ofl⟩, ?reserved⟩
  case reserved =>
    simp only [List.forall_mem_cons, List.not_mem_nil, false_implies, implies_true, and_true]
    refine ⟨?_, ?_, ?_, ?_, ?_, ?_, ?_⟩
    all_goals
      apply f.getLsbD_image_of_digit
      simp only [Bool.toNat_false]
      omega
  all_goals
    apply f.getLsbD_image_of_digit
    omega

/-- The bits of the FLAGS word: the image's, and the draw's in the reserved places. -/
theorem Flags.getLsbD_toWord (f : Flags) (d : Word) (i : Nat) :
    (f.toWord d).getLsbD i = (f.image.getLsbD i || (d.getLsbD i && flagsReservedMask.getLsbD i)) := by
  rw [Flags.toWord, BitVec.getLsbD_or, BitVec.getLsbD_and]

/-- Settles O20. -/
theorem flagsWordLayout : Obligations.FlagsWordLayout := by
  intro f d
  obtain ⟨⟨hcf, hpf, haf, hzf, hsf, htf, hifl, hdf, hofl⟩, hreserved⟩ := f.getLsbD_image
  have hflag : ∀ k, flagsReservedMask.getLsbD k = false → (f.toWord d).getLsbD k = f.image.getLsbD k := by
    intro k hk
    simp [Flags.getLsbD_toWord, hk]
  have hmask : ∀ k ∈ [1, 3, 5, 12, 13, 14, 15], flagsReservedMask.getLsbD k = true := by decide
  have hof : Flags.ofWord (f.toWord d) = f := by
    simp (disch := decide) only [Flags.ofWord, hflag, hcf, hpf, haf, hzf, hsf, htf, hifl, hdf, hofl]
  simp (disch := decide) only [hflag, hcf, hpf, haf, hzf, hsf, htf, hifl, hdf, hofl, hof, true_and, and_true]
  intro k hk
  simp [Flags.getLsbD_toWord, hreserved k hk, hmask k hk]

theorem Flags.ofWord_toWord (f : Flags) (d : Word) : Flags.ofWord (f.toWord d) = f := by
  obtain ⟨-, -, -, -, -, -, -, -, -, -, hof⟩ := flagsWordLayout f d
  exact hof

/-! ### The sequence and IRET -/

/-- What the interrupt sequence leaves where memory is plain, but for the pointer it takes CS and IP from. -/
theorem State.interrupt_frame (s : State) (n : Byte) (ret : Word) (h : s.devices = []) :
    ∃ t, s.interrupt n ret = t
      ∧ t.gpr = { s.gpr with sp := s.gpr.sp - 6 } ∧ t.seg = { s.seg with cs := t.seg.cs }
      ∧ t.flags = { s.flags with ifl := false, tf := false } ∧ t.halted = false ∧ t.inhibit = .none
      ∧ t.plainWord s.seg.ss (s.gpr.sp - 2) = s.flags.toWord s.draw.1
      ∧ t.plainWord s.seg.ss (s.gpr.sp - 4) = s.seg.cs ∧ t.plainWord s.seg.ss (s.gpr.sp - 6) = ret
      ∧ (∀ x, x ∉ s.frameBytes → Memory.read t.mem x = Memory.read s.mem x)
      ∧ t.latches = s.latches ∧ t.devices = s.devices ∧ sameLines s t := by
  obtain ⟨q, hq, hgpr, hrest, -, hflags, hcs, hret, hmem, -⟩ :=
    State.push16_frame s (s.flags.toWord s.draw.1) s.seg.cs ret h
  obtain ⟨-, -, -, -, hlatches, hdevices, hlines⟩ := hrest
  rw [State.interrupt_plain s n ret h, ← hq]
  exact ⟨_, rfl, hgpr, rfl, rfl, rfl, rfl, hflags, hcs, hret, hmem, hlatches, hdevices, hlines⟩

/-- Settles O13. -/
theorem interruptSequence : Obligations.InterruptSequence := by
  intro s n ret h hdisjoint
  obtain ⟨hcs, hip⟩ := State.interrupt_vector s n ret h hdisjoint
  obtain ⟨t, ht, hgpr, hseg, hflags, hhalted, hinhibit, hframe⟩ := State.interrupt_frame s n ret h
  rw [ht] at hcs hip
  rw [hcs] at hseg
  exact ⟨t, s.draw.1, ht, hgpr, hseg, hip, hflags, hhalted, hinhibit, hframe⟩

/-- IRET where memory is plain, as an outcome. -/
theorem exec_iret_plain {s : State} (h : s.devices = []) :
    exec .iret s = .next
      { s with
        gpr := { s.gpr with sp := s.gpr.sp + 6 }
        seg := { s.seg with cs := s.plainWord s.seg.ss (s.gpr.sp + 2) }
        ip := s.plainWord s.seg.ss s.gpr.sp
        flags := Flags.ofWord (s.plainWord s.seg.ss (s.gpr.sp + 4))
        stored := [] } :=
  congrArg Host.Outcome.next (State.interruptReturn_plain s h)

/-- Settles O14. -/
theorem softwareInterruptsAndIret : Obligations.SoftwareInterruptsAndIret := by
  intro s
  refine ⟨fun _ => rfl, rfl, rfl, fun h => ⟨_, exec_iret_plain h, rfl, rfl, rfl, rfl, fun _ => rfl, rfl, rfl, ?_⟩⟩
  exact ⟨rfl, rfl, sameLines_refl s⟩

/-- Settles O15: the three words popped are the three words of the frame. -/
theorem iretUndoesInterrupt : Obligations.IretUndoesInterrupt := by
  intro s n ret h
  obtain ⟨t, ht, hgpr, hseg, -, -, -, hflags, hcs, hret, hmem, -, hdevices, -⟩ := State.interrupt_frame s n ret h
  rw [ht]
  have hss : t.seg.ss = s.seg.ss := by rw [hseg]
  have hsp : t.gpr.sp = s.gpr.sp - 6 := by rw [hgpr]
  have h4 : s.gpr.sp - 6 + 2 = s.gpr.sp - 4 := by bv_omega
  have h2 : s.gpr.sp - 6 + 4 = s.gpr.sp - 2 := by bv_omega
  refine ⟨_, exec_iret_plain (hdevices.trans h), ?_, ?_, ?_, ?_, hmem⟩
  · simp [hgpr]
  · simp only [hss, hsp, h4, hcs]
    rw [hseg]
  · simp only [hss, hsp, hret]
  · simp only [hss, hsp, h2, hflags, Flags.ofWord_toWord]

/-! ### BOUND -/

theorem exec_bound_plain {s : State} (g : Reg16) (m : Mem) (h : s.devices = []) :
    exec (.bound g m) s = .next
      (if (s.reg16 g).toInt < (s.plainPointer m).1.toInt ∨ (s.plainPointer m).2.toInt < (s.reg16 g).toInt then
        s.interrupt 5 (failureReturn s) else s) := by
  show execBound g m s = _
  rw [execBound, State.readPointer_plain h]
  rfl

/-- Settles O52. -/
theorem boundChecksIndex : Obligations.BoundChecksIndex := by
  intro s g m h
  rw [exec_bound_plain g m h]
  exact ⟨fun hlo hhi => by rw [if_neg (by omega)], fun hout => by rw [if_pos hout]⟩

/-! ### Divisions that fail -/

theorem State.faultOffset_eq {s t : State} (h : RegsOnly s t) : t.faultOffset = failureReturn s := by
  show failureReturn t = failureReturn s
  rw [failureReturn, failureReturn, h.ip, h.latches]

/-- The status flags drawn: registers, memory and control flags as before. -/
theorem Quiet.divideFlags {s r : State} (h : Quiet s r) :
    RegsOnly s r.divideFlags ∧ r.divideFlags.gpr = s.gpr ∧ controlFlagsKept s.flags r.divideFlags.flags := by
  obtain ⟨hregs, -⟩ := id h
  obtain ⟨hgpr, -, -, hflags, -⟩ := hregs
  refine ⟨h.regsOnly.draw.setFlags _, hgpr, ?_⟩
  rw [← hflags]
  exact ⟨rfl, rfl, rfl⟩

theorem Quiet.divideError8 {s r : State} (h : Quiet s r) :
    ∃ u, divideFailed s u [.ax] ∧ r.divideError8 = u.interrupt 0 (failureReturn s) := by
  obtain ⟨hregs, hgpr, hflags⟩ := h.divideFlags
  have hu := hregs.draw.setReg16 .ax r.divideFlags.draw.1
  have hkept := (gprKept_of_eq hgpr [.ax]).setReg16 (t := r.divideFlags.draw.2) (.head _) r.divideFlags.draw.1
  refine ⟨_, ⟨hkept, hflags, hu.memKept, hu.sameRest⟩, ?_⟩
  rw [← State.faultOffset_eq hu, State.divideError8]

theorem Quiet.divideError16 {s r : State} (h : Quiet s r) :
    ∃ u, divideFailed s u [.ax, .dx] ∧ r.divideError16 = u.interrupt 0 (failureReturn s) := by
  obtain ⟨hregs, hgpr, hflags⟩ := h.divideFlags
  have hu := hregs.draw.setReg16 .ax r.divideFlags.draw.1
  have hv := hu.draw.setReg16 .dx (r.divideFlags.draw.2.setReg16 .ax r.divideFlags.draw.1).draw.1
  have hkept := (gprKept_of_eq hgpr [.ax, .dx]).setReg16 (t := r.divideFlags.draw.2) (.head _) r.divideFlags.draw.1
  have hkept' := hkept.setReg16 (t := (r.divideFlags.draw.2.setReg16 .ax r.divideFlags.draw.1).draw.2)
    (.tail _ (.head _)) (r.divideFlags.draw.2.setReg16 .ax r.divideFlags.draw.1).draw.1
  refine ⟨_, ⟨hkept', hflags, hv.memKept, hv.sameRest⟩, ?_⟩
  rw [← State.faultOffset_eq hv, State.divideError16]

/-! ### What DIV and IDIV test -/

theorem exec_div_eb (e : RM Reg8) (s : State) : exec (.div (.eb e)) s = .next
    (if (s.read8 (s.loc e)).1 = 0 ∨ 0xFF < s.gpr.ax.toNat / (s.read8 (s.loc e)).1.toNat then
      (s.read8 (s.loc e)).2.divideError8
    else (s.read8 (s.loc e)).2.divided8 (BitVec.ofNat 8 (s.gpr.ax.toNat / (s.read8 (s.loc e)).1.toNat))
      (BitVec.ofNat 8 (s.gpr.ax.toNat % (s.read8 (s.loc e)).1.toNat))) := rfl

theorem exec_div_ev (e : RM Reg16) (s : State) : exec (.div (.ev e)) s = .next
    (if (s.read16 (s.loc e)).1 = 0 ∨ 0xFFFF < s.dxAx.toNat / (s.read16 (s.loc e)).1.toNat then
      (s.read16 (s.loc e)).2.divideError16
    else (s.read16 (s.loc e)).2.divided16 (BitVec.ofNat 16 (s.dxAx.toNat / (s.read16 (s.loc e)).1.toNat))
      (BitVec.ofNat 16 (s.dxAx.toNat % (s.read16 (s.loc e)).1.toNat))) := rfl

theorem exec_idiv_eb (e : RM Reg8) (s : State) : exec (.idiv (.eb e)) s = .next
    (if (s.read8 (s.loc e)).1 = 0 ∨ quotientTraps 8 (s.gpr.ax.toInt.tdiv (s.read8 (s.loc e)).1.toInt) then
      (s.read8 (s.loc e)).2.divideError8
    else (s.read8 (s.loc e)).2.divided8 (BitVec.ofInt 8 (s.gpr.ax.toInt.tdiv (s.read8 (s.loc e)).1.toInt))
      (BitVec.ofInt 8 (s.gpr.ax.toInt.tmod (s.read8 (s.loc e)).1.toInt))) := rfl

theorem exec_idiv_ev (e : RM Reg16) (s : State) : exec (.idiv (.ev e)) s = .next
    (if (s.read16 (s.loc e)).1 = 0 ∨ quotientTraps 16 (s.dxAx.toInt.tdiv (s.read16 (s.loc e)).1.toInt) then
      (s.read16 (s.loc e)).2.divideError16
    else (s.read16 (s.loc e)).2.divided16 (BitVec.ofInt 16 (s.dxAx.toInt.tdiv (s.read16 (s.loc e)).1.toInt))
      (BitVec.ofInt 16 (s.dxAx.toInt.tmod (s.read16 (s.loc e)).1.toInt))) := rfl

theorem quotientTraps_8_iff (q : Int) :
    quotientTraps 8 q = true ↔ q < -128 ∨ 127 < q ∨ (q = -128 ∧ Config.idivMinQuotientTraps = true) := by
  simp [quotientTraps, signedOutside, or_assoc]

theorem quotientTraps_16_iff (q : Int) :
    quotientTraps 16 q = true ↔ q < -32768 ∨ 32767 < q ∨ (q = -32768 ∧ Config.idivMinQuotientTraps = true) := by
  simp [quotientTraps, signedOutside, or_assoc]

/-- Settles O16: the test of each form is the condition of the statement. -/
theorem divideErrors : Obligations.DivideErrors := by
  intro s
  refine ⟨fun e d hd h => ?_, fun e d hd h => ?_, fun e d q hd hq h => ?_, fun e d q hd hq h => ?_⟩
  · obtain ⟨u, hu, herror⟩ := (Quiet.read8 s (s.loc e)).divideError8
    exact ⟨u, hu, by rw [exec_div_eb, hd, if_pos h, herror]⟩
  · obtain ⟨u, hu, herror⟩ := (Quiet.read16 s (s.loc e)).divideError16
    exact ⟨u, hu, by rw [exec_div_ev, hd, State.toNat_dxAx, if_pos h, herror]⟩
  · obtain ⟨u, hu, herror⟩ := (Quiet.read8 s (s.loc e)).divideError8
    have htest := h.imp_right (quotientTraps_8_iff q).mpr
    exact ⟨u, hu, by rw [exec_idiv_eb, hd, hq, if_pos htest, herror]⟩
  · obtain ⟨u, hu, herror⟩ := (Quiet.read16 s (s.loc e)).divideError16
    have htest := h.imp_right (quotientTraps_16_iff q).mpr
    exact ⟨u, hu, by rw [exec_idiv_ev, hd, State.toInt_dxAx, hq, if_pos htest, herror]⟩

/-! ### Divisions that complete -/

/-- The quotient truncated toward zero is the one whose remainder is small and has the dividend's sign. -/
theorem tdiv_tmod_of_eq {n d q r : Int} (hd : d ≠ 0) (h : n = q * d + r) (hr : r.natAbs < d.natAbs)
    (hs : r = 0 ∨ (r < 0 ↔ n < 0)) : n.tdiv d = q ∧ n.tmod d = r := by
  rcases lt_or_ge n 0 with hn | hn
  · have hneg := (Int.tdiv_tmod_unique (a := -n) (q := -q) (r := -r) (by omega) hd).mpr
      ⟨by rw [h]; ring, by omega, by omega⟩
    rw [Int.neg_tdiv, Int.neg_tmod] at hneg
    omega
  · exact (Int.tdiv_tmod_unique hn hd).mpr ⟨by rw [h]; ring, by omega, by omega⟩

theorem Quiet.divided8 {s r : State} (h : Quiet s r) (a b : Byte) :
    ((r.divided8 a b).reg8 .al = a ∧ (r.divided8 a b).reg8 .ah = b)
      ∧ gprKept s (r.divided8 a b) [.ax] ∧ memKept s (r.divided8 a b)
      ∧ controlFlagsKept s.flags (r.divided8 a b).flags ∧ Machine.sameRest s (r.divided8 a b) := by
  obtain ⟨hregs, hgpr, hflags⟩ := h.divideFlags
  have ht := hregs.setReg16 .ax (wordOf a b)
  refine ⟨?_, (gprKept_of_eq hgpr _).setReg16 (.head _) _, ht.memKept, hflags, ht.sameRest⟩
  exact ⟨loByte_wordOf a b, hiByte_wordOf a b⟩

theorem Quiet.divided16 {s r : State} (h : Quiet s r) (a b : Word) :
    ((r.divided16 a b).gpr.ax = a ∧ (r.divided16 a b).gpr.dx = b)
      ∧ gprKept s (r.divided16 a b) [.ax, .dx] ∧ memKept s (r.divided16 a b)
      ∧ controlFlagsKept s.flags (r.divided16 a b).flags ∧ Machine.sameRest s (r.divided16 a b) := by
  obtain ⟨hregs, hgpr, hflags⟩ := h.divideFlags
  have ht := (hregs.setReg16 .ax a).setReg16 .dx b
  refine ⟨⟨rfl, rfl⟩, ?_, ht.memKept, hflags, ht.sameRest⟩
  exact ((gprKept_of_eq hgpr _).setReg16 (.head _) a).setReg16 (.tail _ (.head _)) b

theorem toInt_ne_zero {w : Nat} {d : BitVec w} (h : d ≠ 0) : d.toInt ≠ 0 := fun h0 =>
  h (BitVec.eq_of_toInt_eq (by simpa using h0))

/-- Settles O34. -/
theorem divisions : Obligations.Divisions := by
  intro s
  refine ⟨fun e d hd h0 hq => ?_, fun e d n hd h0 hn hq => ?_, fun e d q r hd h0 heq hr hs hhi hlo => ?_,
    fun e d n q r hd h0 hn heq hr hs hhi hlo => ?_⟩
  · have hpos : 0 < d.toNat := Nat.pos_of_ne_zero fun h => h0 (BitVec.eq_of_toNat_eq h)
    have hmod := Nat.mod_lt s.gpr.ax.toNat hpos
    have hlt := d.isLt
    obtain ⟨⟨hal, hah⟩, hkept⟩ := (Quiet.read8 s (s.loc e)).divided8
      (BitVec.ofNat 8 (s.gpr.ax.toNat / d.toNat)) (BitVec.ofNat 8 (s.gpr.ax.toNat % d.toNat))
    have hfits : ¬ (d = 0 ∨ 0xFF < s.gpr.ax.toNat / d.toNat) := by
      rw [or_iff_right h0]
      omega
    refine ⟨_, by rw [exec_div_eb, hd, if_neg hfits], ?_, ?_, hkept⟩
    · rw [hal, hah, BitVec.toNat_ofNat, BitVec.toNat_ofNat, Nat.mod_eq_of_lt (by omega), Nat.mod_eq_of_lt (by omega),
        Nat.div_add_mod']
    · rwa [hah, BitVec.toNat_ofNat, Nat.mod_eq_of_lt (by omega)]
  · have hpos : 0 < d.toNat := Nat.pos_of_ne_zero fun h => h0 (BitVec.eq_of_toNat_eq h)
    have hmod := Nat.mod_lt n hpos
    have hlt := d.isLt
    obtain ⟨⟨hax, hdx⟩, hkept⟩ := (Quiet.read16 s (s.loc e)).divided16
      (BitVec.ofNat 16 (n / d.toNat)) (BitVec.ofNat 16 (n % d.toNat))
    have hfits : ¬ (d = 0 ∨ 0xFFFF < n / d.toNat) := by
      rw [or_iff_right h0]
      omega
    refine ⟨_, by rw [exec_div_ev, hd, State.toNat_dxAx, ← hn, if_neg hfits], ?_, ?_, hkept⟩
    · rw [hax, hdx, BitVec.toNat_ofNat, BitVec.toNat_ofNat, Nat.mod_eq_of_lt (by omega), Nat.mod_eq_of_lt (by omega),
        Nat.div_add_mod']
    · rwa [hdx, BitVec.toNat_ofNat, Nat.mod_eq_of_lt (by omega)]
  · obtain ⟨hdiv, hmod⟩ := tdiv_tmod_of_eq (toInt_ne_zero h0) heq hr hs
    have hfits : ¬ (d = 0 ∨ quotientTraps 8 q = true) := by
      rw [or_iff_right h0, quotientTraps_8_iff]
      rintro (h | h | ⟨h, ht⟩)
      · omega
      · omega
      · simp [ht] at hlo
        omega
    have hdlo := d.le_toInt
    have hdhi := d.toInt_lt
    obtain ⟨⟨hal, hah⟩, hkept⟩ := (Quiet.read8 s (s.loc e)).divided8 (BitVec.ofInt 8 q) (BitVec.ofInt 8 r)
    refine ⟨_, by rw [exec_idiv_eb, hd, hdiv, hmod, if_neg hfits], ?_, ?_, hkept⟩
    · rw [hal, BitVec.toInt_ofInt_eq_self] <;> omega
    · rw [hah, BitVec.toInt_ofInt_eq_self] <;> omega
  · obtain ⟨hdiv, hmod⟩ := tdiv_tmod_of_eq (toInt_ne_zero h0) heq hr hs
    have hfits : ¬ (d = 0 ∨ quotientTraps 16 q = true) := by
      rw [or_iff_right h0, quotientTraps_16_iff]
      rintro (h | h | ⟨h, ht⟩)
      · omega
      · omega
      · simp [ht] at hlo
        omega
    have hdlo := d.le_toInt
    have hdhi := d.toInt_lt
    obtain ⟨⟨hax, hdx⟩, hkept⟩ := (Quiet.read16 s (s.loc e)).divided16 (BitVec.ofInt 16 q) (BitVec.ofInt 16 r)
    refine ⟨_, by rw [exec_idiv_ev, hd, State.toInt_dxAx, ← hn, hdiv, hmod, if_neg hfits], ?_, ?_, hkept⟩
    · rw [hax, BitVec.toInt_ofInt_eq_self] <;> omega
    · rw [hdx, BitVec.toInt_ofInt_eq_self] <;> omega

end Sys2Proof.Machine
end

section
/-! PROOF. The multiplications: O33. -/

namespace Sys2Proof.Machine

/-! ### Whether a product fits single length -/

theorem hiByte_ne_zero (p : Word) : (hiByte p != 0) = decide (256 ≤ p.toNat) := by
  have hhi := toNat_hiByte p
  have hzero : hiByte p = 0 ↔ p.toNat < 256 := by
    rw [← BitVec.toNat_inj, hhi]
    simp
  rw [Bool.eq_iff_iff, bne_iff_ne, Ne, hzero, decide_eq_true_iff]
  omega

theorem hiWord_ne_zero (p : BitVec 32) : (p.extractLsb' 16 16 != 0) = decide (65536 ≤ p.toNat) := by
  have hhi := toNat_hiWord p
  have hzero : p.extractLsb' 16 16 = 0 ↔ p.toNat < 65536 := by
    rw [← BitVec.toNat_inj, hhi]
    simp
  rw [Bool.eq_iff_iff, bne_iff_ne, Ne, hzero, decide_eq_true_iff]
  omega

/-- The upper byte is the sign extension of the lower one exactly where the number fits a signed byte. -/
theorem byteProductSpills_eq (p : Word) : byteProductSpills p = decide (p.toInt < -128 ∨ 127 < p.toInt) := by
  have hlo := toNat_loByte p
  have hhi := toNat_hiByte p
  have hp := p.isLt
  rw [byteProductSpills, Bool.eq_iff_iff, bne_iff_ne, decide_eq_true_iff, Ne, ← BitVec.toNat_inj, hhi,
    BitVec.msb_eq_decide, hlo, BitVec.toInt_eq_toNat_cond]
  split <;> split <;> simp_all <;> omega

theorem wordProductSpills_eq (p : BitVec 32) : wordProductSpills p = decide (p.toInt < -32768 ∨ 32767 < p.toInt) := by
  have hlo := toNat_loWord p
  have hhi := toNat_hiWord p
  have hp := p.isLt
  rw [wordProductSpills, Bool.eq_iff_iff, bne_iff_ne, decide_eq_true_iff, Ne, ← BitVec.toNat_inj, hhi,
    BitVec.msb_eq_decide, hlo, BitVec.toInt_eq_toNat_cond]
  split <;> split <;> simp_all <;> omega

/-! ### The products are exact -/

theorem toNat_byteProduct (a b : Byte) : (BitVec.ofNat 16 (a.toNat * b.toNat)).toNat = a.toNat * b.toNat := by
  have hlt := Nat.mul_lt_mul'' a.isLt b.isLt
  rw [BitVec.toNat_ofNat, Nat.mod_eq_of_lt (by simpa using hlt)]

theorem toNat_wordProduct (a b : Word) : (BitVec.ofNat 32 (a.toNat * b.toNat)).toNat = a.toNat * b.toNat := by
  have hlt := Nat.mul_lt_mul'' a.isLt b.isLt
  rw [BitVec.toNat_ofNat, Nat.mod_eq_of_lt (by simpa using hlt)]

/-- A product of signed numbers is no larger than the product of their bounds. -/
theorem mul_bounds {a b m : Int} (hal : -m ≤ a) (hau : a ≤ m) (hbl : -m ≤ b) (hbu : b ≤ m) :
    -(m * m) ≤ a * b ∧ a * b ≤ m * m := by
  rw [← abs_le, abs_mul]
  exact mul_le_mul (abs_le.mpr ⟨hal, hau⟩) (abs_le.mpr ⟨hbl, hbu⟩) (abs_nonneg b)
    ((abs_nonneg a).trans (abs_le.mpr ⟨hal, hau⟩))

theorem toInt_byteProduct (a b : Byte) : (BitVec.ofInt 16 (a.toInt * b.toInt)).toInt = a.toInt * b.toInt := by
  have hal := a.le_toInt
  have hau := a.toInt_lt
  have hbl := b.le_toInt
  have hbu := b.toInt_lt
  obtain ⟨hlo, hhi⟩ := mul_bounds (a := a.toInt) (b := b.toInt) (m := 128) (by omega) (by omega) (by omega) (by omega)
  rw [BitVec.toInt_ofInt_eq_self (by decide)] <;> omega

theorem toInt_wordProduct (a b : Word) : (BitVec.ofInt 32 (a.toInt * b.toInt)).toInt = a.toInt * b.toInt := by
  have hal := a.le_toInt
  have hau := a.toInt_lt
  have hbl := b.le_toInt
  have hbu := b.toInt_lt
  obtain ⟨hlo, hhi⟩ := mul_bounds (a := a.toInt) (b := b.toInt) (m := 32768) (by omega) (by omega) (by omega)
    (by omega)
  rw [BitVec.toInt_ofInt_eq_self (by decide)] <;> omega

/-! ### What a multiplication writes -/

/-- The frame of a multiplication that leaves CF = OF = `o`. -/
def Multiplied (s t : State) (o : Bool) : Prop :=
  t.flags.cf = o ∧ t.flags.ofl = t.flags.cf ∧ controlFlagsKept s.flags t.flags ∧ sameRest s t

theorem RegsOnly.productFlags {s t : State} (h : RegsOnly s t) (hf : t.flags = s.flags) {o c : Bool}
    (ho : o = c) : Multiplied s (t.productFlags o) c :=
  ⟨ho, rfl, hf ▸ ⟨rfl, rfl, rfl⟩, (h.draw.setFlags _).sameRest⟩

theorem Quiet.product8 {s r : State} (h : Quiet s r) {p : Word} {o c : Bool} (ho : o = c) :
    ((r.setReg16 .ax p).productFlags o).gpr.ax = p ∧ gprKept s ((r.setReg16 .ax p).productFlags o) [.ax]
      ∧ memKept s ((r.setReg16 .ax p).productFlags o) ∧ Multiplied s ((r.setReg16 .ax p).productFlags o) c := by
  obtain ⟨⟨hgpr, -, -, hflags, -⟩, -⟩ := id h
  have ht := h.regsOnly.setReg16 .ax p
  exact ⟨rfl, (gprKept_of_eq hgpr _).setReg16 (.head _) p, ht.memKept, ht.productFlags hflags ho⟩

theorem State.dxAx_setDxAx (s : State) (p : BitVec 32) : (s.setDxAx p).dxAx = p := by
  show p.extractLsb' 16 16 ++ p.extractLsb' 0 16 = p
  apply BitVec.eq_of_toNat_eq
  rw [BitVec.toNat_append, ← Nat.shiftLeft_add_eq_or_of_lt (BitVec.isLt _), Nat.shiftLeft_eq, toNat_hiWord,
    toNat_loWord]
  exact Nat.div_add_mod' p.toNat 65536

theorem Quiet.product16 {s r : State} (h : Quiet s r) {p : BitVec 32} {o c : Bool} (ho : o = c) :
    ((r.setDxAx p).productFlags o).dxAx = p ∧ gprKept s ((r.setDxAx p).productFlags o) [.ax, .dx]
      ∧ memKept s ((r.setDxAx p).productFlags o) ∧ Multiplied s ((r.setDxAx p).productFlags o) c := by
  obtain ⟨⟨hgpr, -, -, hflags, -⟩, -⟩ := id h
  have ht := (h.regsOnly.setReg16 .dx (p.extractLsb' 16 16)).setReg16 .ax (p.extractLsb' 0 16)
  refine ⟨State.dxAx_setDxAx r p, ?_, ht.memKept, ht.productFlags hflags ho⟩
  exact ((gprKept_of_eq hgpr _).setReg16 (.tail _ (.head _)) _).setReg16 (.head _) _

/-- Settles O33. -/
theorem multiplications : Obligations.Multiplications := by
  intro s
  refine ⟨fun e => ?_, fun e => ?_, fun e => ?_, fun e => ?_, fun g e f p hp => ?_⟩
  · obtain ⟨hax, hkept, hmem, hflags⟩ := (Quiet.read8 s (s.loc e)).product8
      (hiByte_ne_zero (BitVec.ofNat 16 ((s.reg8 .al).toNat * (s.read8 (s.loc e)).1.toNat)))
    rw [toNat_byteProduct] at hflags
    exact ⟨_, rfl, by rw [hax, toNat_byteProduct], hkept, hmem, hflags⟩
  · obtain ⟨hdxax, hkept, hmem, hflags⟩ := (Quiet.read16 s (s.loc e)).product16
      (hiWord_ne_zero (BitVec.ofNat 32 (s.gpr.ax.toNat * (s.read16 (s.loc e)).1.toNat)))
    rw [toNat_wordProduct] at hflags
    exact ⟨_, rfl, by rw [← State.toNat_dxAx, hdxax, toNat_wordProduct], hkept, hmem, hflags⟩
  · obtain ⟨hax, hkept, hmem, hflags⟩ := (Quiet.read8 s (s.loc e)).product8
      (byteProductSpills_eq (BitVec.ofInt 16 ((s.reg8 .al).toInt * (s.read8 (s.loc e)).1.toInt)))
    rw [toInt_byteProduct] at hflags
    exact ⟨_, rfl, by rw [hax, toInt_byteProduct], hkept, hmem, hflags⟩
  · obtain ⟨hdxax, hkept, hmem, hflags⟩ := (Quiet.read16 s (s.loc e)).product16
      (wordProductSpills_eq (BitVec.ofInt 32 (s.gpr.ax.toInt * (s.read16 (s.loc e)).1.toInt)))
    rw [toInt_wordProduct] at hflags
    exact ⟨_, rfl, by rw [← State.toInt_dxAx, hdxax, toInt_wordProduct], hkept, hmem, hflags⟩
  · have hread := Quiet.read16 s (s.loc e)
    obtain ⟨⟨-, -, -, hflags, -⟩, -⟩ := id hread
    have hspills : signedOutside 16 p = decide (p < -32768 ∨ 32767 < p) := by
      rw [signedOutside, Bool.decide_or]
      norm_num
    have hexec : exec (.imulImm g e f) s = .next
        (((s.read16 (s.loc e)).2.setReg16 g (BitVec.ofInt 16 p)).productFlags (signedOutside 16 p)) := by
      have hp' : p = (s.read16 (s.loc e)).1.toInt * (immValue f).toInt := by
        cases f <;> exact hp
      rw [hp']
      rfl
    exact ⟨_, hexec, hread.wrote16 (.reg g) (BitVec.ofInt 16 p),
      (hread.regsOnly.setReg16 g _).productFlags hflags hspills⟩

end Sys2Proof.Machine
end

section
/-! PROOF. The decimal adjusts and packed decimal arithmetic: O35, O36, O37. -/

namespace Sys2Proof.Machine

theorem lowDigitAdjusts_eq (al : Byte) (af : Bool) :
    lowDigitAdjusts al af = decide (9 < al.toNat % 16 ∨ af = true) := by
  simp [lowDigitAdjusts]

/-! ### The unpacked adjusts -/

/-- The frame of a decimal adjust: AL and AH, and the status flags. -/
def Adjusted (s t : State) : Prop :=
  gprKept s t [.ax] ∧ memKept s t ∧ controlFlagsKept s.flags t.flags ∧ sameRest s t

theorem State.asciiAdjust_spec (s : State) (al ah : Byte) (adjusts : Bool) :
    ((s.asciiAdjust al ah adjusts).reg8 .al = al &&& 0x0F ∧ (s.asciiAdjust al ah adjusts).reg8 .ah = ah
      ∧ (s.asciiAdjust al ah adjusts).flags.af = adjusts ∧ (s.asciiAdjust al ah adjusts).flags.cf = adjusts)
    ∧ Adjusted s (s.asciiAdjust al ah adjusts) := by
  have ht := ((Quiet.refl s).regsOnly.draw.setReg16 .ax (wordOf (al &&& 0x0F) ah)).setFlags
    (s.asciiAdjust al ah adjusts).flags
  refine ⟨⟨loByte_wordOf _ _, hiByte_wordOf _ _, rfl, rfl⟩, ?_, ht.memKept, ⟨rfl, rfl, rfl⟩, ht.sameRest⟩
  exact (gprKept_of_eq rfl _).setReg16 (t := s.draw.2) (.head _) _

theorem State.asciiScale_spec (s : State) (al ah : Byte) :
    ((s.asciiScale al ah).reg8 .al = al ∧ (s.asciiScale al ah).reg8 .ah = ah
      ∧ resultFlags (s.asciiScale al ah).flags al) ∧ Adjusted s (s.asciiScale al ah) := by
  have ht := ((Quiet.refl s).regsOnly.draw.setReg16 .ax (wordOf al ah)).setFlags (s.asciiScale al ah).flags
  refine ⟨⟨loByte_wordOf _ _, hiByte_wordOf _ _, resultFlags_of rfl rfl rfl⟩, ?_, ht.memKept, ⟨rfl, rfl, rfl⟩,
    ht.sameRest⟩
  exact (gprKept_of_eq rfl _).setReg16 (t := s.draw.2) (.head _) _

theorem exec_aaa_eq (s : State) : exec .aaa s = .next
    (if lowDigitAdjusts (s.reg8 .al) s.flags.af then s.asciiAdjust (s.reg8 .al + 6) (s.reg8 .ah + 1) true
    else s.asciiAdjust (s.reg8 .al) (s.reg8 .ah) false) := rfl

theorem exec_aas_eq (s : State) : exec .aas s = .next
    (if lowDigitAdjusts (s.reg8 .al) s.flags.af then s.asciiAdjust (s.reg8 .al - 6) (s.reg8 .ah - 1) true
    else s.asciiAdjust (s.reg8 .al) (s.reg8 .ah) false) := rfl

/-- Settles O35. -/
theorem unpackedDecimalAdjusts : Obligations.UnpackedDecimalAdjusts := by
  intro s al ah hal hah
  have hlt := al.isLt
  refine ⟨?_, ?_, ?_, ?_⟩
  · rw [exec_aaa_eq, hal, hah, lowDigitAdjusts_eq]
    by_cases hadjust : 9 < al.toNat % 16 ∨ s.flags.af = true
    · refine ⟨_, rfl, ?_⟩
      rw [decide_eq_true hadjust, if_pos rfl, if_pos hadjust]
      exact s.asciiAdjust_spec (al + 6) (ah + 1) true
    · refine ⟨_, rfl, ?_⟩
      rw [decide_eq_false hadjust, if_neg Bool.false_ne_true, if_neg hadjust]
      exact s.asciiAdjust_spec al ah false
  · rw [exec_aas_eq, hal, hah, lowDigitAdjusts_eq]
    by_cases hadjust : 9 < al.toNat % 16 ∨ s.flags.af = true
    · refine ⟨_, rfl, ?_⟩
      rw [decide_eq_true hadjust, if_pos rfl, if_pos hadjust]
      exact s.asciiAdjust_spec (al - 6) (ah - 1) true
    · refine ⟨_, rfl, ?_⟩
      rw [decide_eq_false hadjust, if_neg Bool.false_ne_true, if_neg hadjust]
      exact s.asciiAdjust_spec al ah false
  · obtain ⟨⟨htal, htah, hflags⟩, hkept⟩ :=
      s.asciiScale_spec (BitVec.ofNat 8 ((s.reg8 .al).toNat % 10)) (BitVec.ofNat 8 ((s.reg8 .al).toNat / 10))
    refine ⟨_, rfl, ?_, ?_, by rwa [htal], hkept⟩
    · rw [htah, hal, BitVec.toNat_ofNat]
      omega
    · rw [htal, hal, BitVec.toNat_ofNat]
      omega
  · obtain ⟨⟨htal, htah, hflags⟩, hkept⟩ :=
      s.asciiScale_spec (BitVec.ofNat 8 ((s.reg8 .ah).toNat * 10 + (s.reg8 .al).toNat)) 0
    refine ⟨_, rfl, htah, ?_, by rwa [htal], hkept⟩
    rw [htal, hal, hah, BitVec.toNat_ofNat]

/-! ### The packed adjusts -/

theorem State.decimalAdjust_spec (s : State) (al : Byte) (af cf : Bool) :
    ((s.decimalAdjust al af cf).reg8 .al = al ∧ (s.decimalAdjust al af cf).flags.af = af
      ∧ (s.decimalAdjust al af cf).flags.cf = cf ∧ resultFlags (s.decimalAdjust al af cf).flags al)
    ∧ (∀ q, q ≠ .al → (s.decimalAdjust al af cf).reg8 q = s.reg8 q) ∧ Adjusted s (s.decimalAdjust al af cf) := by
  have ht := ((Quiet.refl s).regsOnly.draw.setReg8 .al al).setFlags (s.decimalAdjust al af cf).flags
  have hwrote := (Quiet.draw s).wrote8 (.reg .al) al
  obtain ⟨hreg, hgpr, -⟩ := hwrote
  refine ⟨⟨?_, rfl, rfl, resultFlags_of rfl rfl rfl⟩, fun q hq => ?_, hgpr, ht.memKept, ⟨rfl, rfl, rfl⟩, ht.sameRest⟩
  · exact (hreg .al).trans (if_pos rfl)
  · exact (hreg q).trans (if_neg hq)

/-- On an open input only AL and the status flags change. -/
theorem State.dasDrawn_spec (s : State) :
    (∀ q, q ≠ .al → s.dasDrawn.reg8 q = s.reg8 q) ∧ Adjusted s s.dasDrawn := by
  obtain ⟨hregs, -, hflags⟩ := (Quiet.refl s).divideFlags
  have ht := hregs.draw.setReg8 .al (loByte s.divideFlags.draw.1)
  obtain ⟨hreg, hgpr, -⟩ := (Quiet.draw s).wrote8 (.reg .al) (loByte s.divideFlags.draw.1)
  exact ⟨fun q hq => (hreg q).trans (if_neg hq), hgpr, ht.memKept, hflags, ht.sameRest⟩

/-- DAA's second test, by the original AL: after the first adjustment AL is above 9FH, or has overflowed, exactly if it
was above 99H before. -/
theorem daa_second_eq (al : Byte) (af cf : Bool) :
    (decide (0x9F < (if lowDigitAdjusts al af then al + 6 else al).toNat) || cf
      || (lowDigitAdjusts al af && decide (0xFF < al.toNat + 6))) = decide (0x99 < al.toNat ∨ cf = true) := by
  have hlt := al.isLt
  rw [lowDigitAdjusts_eq, Bool.eq_iff_iff]
  by_cases hlow : 9 < al.toNat % 16 ∨ af = true
  · simp only [hlow, decide_true, if_true, Bool.true_and, Bool.or_eq_true, decide_eq_true_eq, BitVec.toNat_add]
    cases cf with
    | false =>
      simp
      omega
    | true => simp
  · simp only [hlow, decide_false, Bool.false_eq_true, if_false, Bool.false_and, Bool.or_eq_true, decide_eq_true_eq]
    cases cf with
    | false =>
      simp
      omega
    | true => simp

/-- DAA by the original AL (41_arithmetic.md R188, the equivalent form). -/
theorem exec_daa_eq (s : State) {al : Byte} (hal : s.reg8 .al = al) : exec .daa s = .next
    (s.decimalAdjust (al + (if 9 < al.toNat % 16 ∨ s.flags.af = true then 6 else 0)
        + (if 0x99 < al.toNat ∨ s.flags.cf = true then 0x60 else 0))
      (decide (9 < al.toNat % 16 ∨ s.flags.af = true)) (decide (0x99 < al.toNat ∨ s.flags.cf = true))) := by
  subst hal
  show Host.Outcome.next (State.decimalAdjust s (ite _ _ _) _ _) = _
  rw [daa_second_eq, lowDigitAdjusts_eq]
  congr 2
  simp only [decide_eq_true_eq]
  split <;> split <;> simp

/-- DAS on an input that is not open (41_arithmetic.md R189). -/
theorem exec_das_eq (s : State) {al first : Byte} (hal : s.reg8 .al = al)
    (hfirst : first = al - (if 9 < al.toNat % 16 ∨ s.flags.af = true then 6 else 0))
    (hopen : dasOpen al s.flags.af s.flags.cf = false) : exec .das s = .next
    (s.decimalAdjust (first - (if 0x9F < first.toNat ∨ s.flags.cf = true then 0x60 else 0))
      (decide (9 < al.toNat % 16 ∨ s.flags.af = true)) (decide (0x9F < first.toNat ∨ s.flags.cf = true))) := by
  subst hal
  have hfirst' : (if lowDigitAdjusts (s.reg8 .al) s.flags.af then s.reg8 .al - 6 else s.reg8 .al) = first := by
    rw [hfirst, lowDigitAdjusts_eq]
    simp only [decide_eq_true_eq]
    split <;> simp
  show Host.Outcome.next (ite (dasOpen _ _ _ = true) _ (State.decimalAdjust s (ite _ _ _) _ _)) = _
  rw [hopen, if_neg Bool.false_ne_true, hfirst', lowDigitAdjusts_eq, Bool.decide_or]
  congr 2
  · simp only [Bool.or_eq_true, decide_eq_true_eq]
    split <;> simp
  · simp

theorem exec_das_open (s : State) (hopen : dasOpen (s.reg8 .al) s.flags.af s.flags.cf = true) :
    exec .das s = .next s.dasDrawn := by
  show Host.Outcome.next (ite (dasOpen _ _ _ = true) _ _) = _
  rw [hopen, if_pos rfl]

theorem dasOpen_eq_false_iff (al : Byte) (af cf : Bool) : dasOpen al af cf = false ↔
    (cf = true ∨ ¬(al.toNat ≤ 5 ∧ af = true) ∧ ¬(0x9A ≤ al.toNat ∧ al.toNat ≤ 0x9F)
      ∧ ¬(0xA0 ≤ al.toNat ∧ al.toNat ≤ 0xA5 ∧ af = true)) := by
  rw [← Bool.not_eq_true]
  simp only [dasOpen, Bool.and_eq_true, Bool.or_eq_true, Bool.not_eq_true', decide_eq_true_eq]
  cases cf with
  | false =>
    simp
    tauto
  | true => simp

/-- Settles O36. -/
theorem packedDecimalAdjusts : Obligations.PackedDecimalAdjusts := by
  intro s al hal
  constructor
  · obtain ⟨⟨htal, haf, hcf, hflags⟩, hreg, hkept⟩ := s.decimalAdjust_spec _ _ _
    exact ⟨_, exec_daa_eq s hal, htal, haf, hcf, by rwa [htal], hreg, hkept⟩
  · cases hopen : dasOpen al s.flags.af s.flags.cf with
    | true =>
      subst hal
      refine ⟨_, exec_das_open s hopen, fun first _ hnot => ?_, s.dasDrawn_spec⟩
      rw [(dasOpen_eq_false_iff _ _ _).mpr hnot] at hopen
      cases hopen
    | false =>
      obtain ⟨⟨htal, haf, hcf, hflags⟩, hreg, hkept⟩ := s.decimalAdjust_spec _ _ _
      refine ⟨_, exec_das_eq s hal rfl hopen, fun first hfirst _ => ?_, hreg, hkept⟩
      subst hfirst
      exact ⟨htal, haf, hcf, by rwa [htal]⟩

/-! ### Packed decimal arithmetic -/

theorem toNat_packed_digits {h l : Nat} (hh : h < 10) (hl : l < 10) : (packed (10 * h + l)).toNat = 16 * h + l := by
  rw [packed, BitVec.toNat_ofNat]
  omega

theorem exists_digits {n : Nat} (h : n < 100) : ∃ hi lo, hi < 10 ∧ lo < 10 ∧ n = 10 * hi + lo :=
  ⟨n / 10, n % 10, by omega, by omega, by omega⟩

/-- DAA's adjustments of a sum of two digit pairs, a carry of the low digits and a carry of the high digits apart. -/
theorem decimal_add_digits {xh xl yh yl c : Nat} (hxh : xh < 10) (hxl : xl < 10) (hyh : yh < 10) (hyl : yl < 10)
    (hc : c ≤ 1) {sum : Nat} (hsum : sum = (16 * xh + xl + (16 * yh + yl) + c) % 256) :
    ∃ hi lo, hi < 10 ∧ lo < 10 ∧ (10 * xh + xl + (10 * yh + yl) + c) % 100 = 10 * hi + lo
      ∧ (sum + (if 9 < sum % 16 ∨ 16 ≤ xl + yl + c then 6 else 0)
          + (if 0x99 < sum ∨ 256 ≤ 16 * xh + xl + (16 * yh + yl) + c then 0x60 else 0)) % 256 = 16 * hi + lo
      ∧ (0x99 < sum ∨ 256 ≤ 16 * xh + xl + (16 * yh + yl) + c ↔ 100 ≤ 10 * xh + xl + (10 * yh + yl) + c) := by
  rcases Nat.lt_or_ge (xl + yl + c) 10 with hlow | hlow
  · have hno6 : ¬ (9 < sum % 16 ∨ 16 ≤ xl + yl + c) := by omega
    rw [if_neg hno6]
    rcases Nat.lt_or_ge (xh + yh) 10 with hhigh | hhigh
    · rw [if_neg (by omega)]
      exact ⟨xh + yh, xl + yl + c, by omega, by omega, by omega, by omega, by omega⟩
    · rw [if_pos (by omega)]
      exact ⟨xh + yh - 10, xl + yl + c, by omega, by omega, by omega, by omega, by omega⟩
  · have h6 : 9 < sum % 16 ∨ 16 ≤ xl + yl + c := by omega
    rw [if_pos h6]
    rcases Nat.lt_or_ge (xh + yh + 1) 10 with hhigh | hhigh
    · rw [if_neg (by omega)]
      exact ⟨xh + yh + 1, xl + yl + c - 10, by omega, by omega, by omega, by omega, by omega⟩
    · rw [if_pos (by omega)]
      exact ⟨xh + yh + 1 - 10, xl + yl + c - 10, by omega, by omega, by omega, by omega, by omega⟩

/-- DAS's adjustments of a difference of two digit pairs. -/
theorem decimal_sub_digits {xh xl yh yl c : Nat} (hxh : xh < 10) (hxl : xl < 10) (hyh : yh < 10) (hyl : yl < 10)
    (hc : c ≤ 1) {diff first : Nat} (hdiff : diff = (16 * xh + xl + 256 - (16 * yh + yl) - c) % 256)
    (hfirst : first = (diff + 256 - (if 9 < diff % 16 ∨ xl < yl + c then 6 else 0)) % 256) :
    ∃ hi lo, hi < 10 ∧ lo < 10 ∧ (10 * xh + xl + 100 - (10 * yh + yl) - c) % 100 = 10 * hi + lo
      ∧ (first + 256 - (if 0x9F < first ∨ 16 * xh + xl < 16 * yh + yl + c then 0x60 else 0)) % 256 = 16 * hi + lo
      ∧ (0x9F < first ∨ 16 * xh + xl < 16 * yh + yl + c ↔ 10 * xh + xl < 10 * yh + yl + c) := by
  rcases Nat.lt_or_ge xl (yl + c) with hlow | hlow
  · rw [if_pos (by omega)] at hfirst
    rcases Nat.lt_or_ge xh (yh + 1) with hhigh | hhigh
    · rw [if_pos (by omega)]
      exact ⟨xh + 10 - yh - 1, xl + 10 - yl - c, by omega, by omega, by omega, by omega, by omega⟩
    · rw [if_neg (by omega)]
      exact ⟨xh - yh - 1, xl + 10 - yl - c, by omega, by omega, by omega, by omega, by omega⟩
  · have hno6 : ¬ (9 < diff % 16 ∨ xl < yl + c) := by omega
    rw [if_neg hno6] at hfirst
    rcases Nat.lt_or_ge xh yh with hhigh | hhigh
    · rw [if_pos (by omega)]
      exact ⟨xh + 10 - yh, xl - yl - c, by omega, by omega, by omega, by omega, by omega⟩
    · rw [if_neg (by omega)]
      exact ⟨xh - yh, xl - yl - c, by omega, by omega, by omega, by omega, by omega⟩

theorem packed_addition (s : State) {x y : Nat} (hx : x < 100) (hy : y < 100) (hal : s.reg8 .al = packed x) :
    ∃ t u, exec (.adc (.alIb (packed y))) s = .next t ∧ exec .daa t = .next u
      ∧ u.reg8 .al = packed ((x + y + s.flags.cf.toNat) % 100)
      ∧ u.flags.cf = decide (100 ≤ x + y + s.flags.cf.toNat) := by
  obtain ⟨xh, xl, hxh, hxl, rfl⟩ := exists_digits hx
  obtain ⟨yh, yl, hyh, hyl, rfl⟩ := exists_digits hy
  obtain ⟨-, -, -, t, ht, ⟨hreg, -⟩, ⟨hcf, ⟨haf, -⟩, -⟩, -⟩ := additions (.alIb (packed (10 * yh + yl))) s
  have htal := (hreg .al).trans (if_pos rfl)
  rw [hal] at htal hcf haf
  have hsum : (t.reg8 .al).toNat = (16 * xh + xl + (16 * yh + yl) + s.flags.cf.toNat) % 256 := by
    rw [htal, sumOf, BitVec.toNat_ofNat, toNat_packed_digits hxh hxl, toNat_packed_digits hyh hyl]
  have haf' : t.flags.af = true ↔ 16 ≤ xl + yl + s.flags.cf.toNat := by
    rw [haf, toNat_packed_digits hxh hxl, toNat_packed_digits hyh hyl, decide_eq_true_iff]
    omega
  have hcf' : t.flags.cf = true ↔ 256 ≤ 16 * xh + xl + (16 * yh + yl) + s.flags.cf.toNat := by
    rw [hcf, toNat_packed_digits hxh hxl, toNat_packed_digits hyh hyl, decide_eq_true_iff]
    rfl
  obtain ⟨hi, lo, hhi, hlo, hdec, hadj, hcarry⟩ :=
    decimal_add_digits hxh hxl hyh hyl s.flags.cf.toNat_le hsum
  obtain ⟨⟨hual, -, hucf, -⟩, -⟩ := t.decimalAdjust_spec _ _ _
  refine ⟨t, _, ht, exec_daa_eq t rfl, ?_, ?_⟩
  · rw [hual, hdec]
    apply BitVec.eq_of_toNat_eq
    rw [toNat_packed_digits hhi hlo, ← hadj]
    simp only [BitVec.toNat_add, apply_ite BitVec.toNat, haf', hcf', Nat.mod_add_mod]
    rfl
  · rw [hucf]
    simp only [hcf', hcarry]

theorem packed_subtraction (s : State) {x y : Nat} (hx : x < 100) (hy : y < 100) (hal : s.reg8 .al = packed x) :
    ∃ t u, exec (.sbb (.alIb (packed y))) s = .next t ∧ exec .das t = .next u
      ∧ u.reg8 .al = packed ((x + 100 - y - s.flags.cf.toNat) % 100)
      ∧ u.flags.cf = decide (x < y + s.flags.cf.toNat) := by
  obtain ⟨xh, xl, hxh, hxl, rfl⟩ := exists_digits hx
  obtain ⟨yh, yl, hyh, hyl, rfl⟩ := exists_digits hy
  obtain ⟨-, -, -, -, ⟨t, ht, ⟨hreg, -⟩, ⟨hcf, ⟨haf, -⟩, -⟩, -⟩, -⟩ := subtractions (.alIb (packed (10 * yh + yl))) s
  have hc := s.flags.cf.toNat_le
  have htal := (hreg .al).trans (if_pos rfl)
  rw [hal] at htal hcf haf
  have hdiff : (t.reg8 .al).toNat = (16 * xh + xl + 256 - (16 * yh + yl) - s.flags.cf.toNat) % 256 := by
    have hnat := toNat_differenceOf (packed (10 * xh + xl)) (packed (10 * yh + yl)) s.flags.cf
    rw [← htal, toNat_packed_digits hxh hxl, toNat_packed_digits hyh hyl] at hnat
    omega
  have haf' : t.flags.af = true ↔ xl < yl + s.flags.cf.toNat := by
    rw [haf, toNat_packed_digits hxh hxl, toNat_packed_digits hyh hyl, decide_eq_true_iff]
    omega
  have hcf' : t.flags.cf = true ↔ 16 * xh + xl < 16 * yh + yl + s.flags.cf.toNat := by
    rw [hcf, toNat_packed_digits hxh hxl, toNat_packed_digits hyh hyl, decide_eq_true_iff]
  have hopen : dasOpen (t.reg8 .al) t.flags.af t.flags.cf = false := by
    rw [dasOpen_eq_false_iff, haf', hcf']
    omega
  have hfirst : (t.reg8 .al - (if 9 < (t.reg8 .al).toNat % 16 ∨ t.flags.af = true then 6 else 0)).toNat
      = ((t.reg8 .al).toNat + 256
          - (if 9 < (t.reg8 .al).toNat % 16 ∨ xl < yl + s.flags.cf.toNat then 6 else 0)) % 256 := by
    simp only [BitVec.toNat_sub, apply_ite BitVec.toNat, haf']
    split
    · simp
      omega
    · simp
  obtain ⟨hi, lo, hhi, hlo, hdec, hadj, hborrow⟩ := decimal_sub_digits hxh hxl hyh hyl hc hdiff hfirst
  obtain ⟨⟨hual, -, hucf, -⟩, -⟩ := t.decimalAdjust_spec _ _ _
  refine ⟨t, _, ht, exec_das_eq t rfl rfl hopen, ?_, ?_⟩
  · rw [hual, hdec]
    apply BitVec.eq_of_toNat_eq
    rw [toNat_packed_digits hhi hlo, ← hadj]
    generalize t.reg8 .al - _ = first
    simp only [BitVec.toNat_sub, apply_ite BitVec.toNat, hcf']
    split
    · simp
      omega
    · simp
  · rw [hucf]
    simp only [hcf', hborrow]

/-- Settles O37. -/
theorem packedDecimalArithmetic : Obligations.PackedDecimalArithmetic := fun s _ _ hx hy hal =>
  ⟨packed_addition s hx hy hal, packed_subtraction s hx hy hal⟩

end Sys2Proof.Machine
end

section
/-! PROOF. The shifts and rotates are the source's loops: O41, O42. -/

namespace Sys2Proof.Machine

/-! ### Loops -/

/-- The last turn of a loop can be taken apart as well as the first. -/
theorem turns_succ {α : Type} (turn : α → α) (c : Nat) (x : α) : turns turn (c + 1) x = turn (turns turn c x) := by
  induction c generalizing x with
  | zero => rfl
  | succ c ih => rw [turns, ih, ← turns]

/-! ### Halving and doubling, bit by bit -/

variable {w : Nat}

theorem getLsbD_double (v : BitVec w) (b : Bool) (i : Nat) :
    (BitVec.ofNat w (v.toNat * 2 + b.toNat)).getLsbD i =
      (decide (i < w) && if i = 0 then b else v.getLsbD (i - 1)) := by
  rw [BitVec.getLsbD_ofNat, ← BitVec.testBit_toNat]
  have hbit := Nat.testBit_two_pow_mul_add (b := b.toNat) (i := 1) v.toNat (by cases b <;> decide) i
  rw [Nat.mul_comm v.toNat, ← Nat.pow_one 2, hbit]
  rcases Nat.eq_zero_or_pos i with rfl | hi
  · cases b <;> rfl
  · rw [if_neg (by omega), if_neg (by omega)]

theorem getLsbD_half (v : BitVec w) (i : Nat) : (BitVec.ofNat w (v.toNat / 2)).getLsbD i = v.getLsbD (i + 1) := by
  rw [BitVec.getLsbD_ofNat, Nat.testBit_div_two, BitVec.testBit_toNat]
  by_cases hi : i < w
  · simp [hi]
  · simp [hi, BitVec.getLsbD_of_ge v (i + 1) (by omega)]

theorem getLsbD_withMsb (v : BitVec w) (b : Bool) (i : Nat) :
    (withMsb v b).getLsbD i = (decide (i < w) && if i = w - 1 then b else v.getLsbD i) := by
  have hmod : v.toNat % 2 ^ (w - 1) < 2 ^ (w - 1) := Nat.mod_lt _ (Nat.two_pow_pos _)
  have hbit := Nat.testBit_two_pow_mul_add (i := w - 1) b.toNat hmod i
  rw [withMsb, BitVec.getLsbD_ofNat, Nat.add_comm, Nat.mul_comm b.toNat, hbit, Nat.testBit_mod_two_pow,
    BitVec.testBit_toNat]
  rcases Nat.lt_trichotomy i (w - 1) with hi | hi | hi
  · simp [hi, Nat.ne_of_lt hi]
  · subst hi
    cases b <;> simp
  · simp [show ¬ i < w by omega]

/-! ### SHL, SHR and SAR -/

theorem value_turns_shl (c : Nat) (x : Shifted w) : (turns shlTurn c x).value = x.value <<< c := by
  induction c with
  | zero => simp [turns]
  | succ c ih =>
    rw [turns_succ, shlTurn, ih, BitVec.shiftLeft_add]
    generalize x.value <<< c = v
    apply BitVec.eq_of_toNat_eq
    rw [BitVec.toNat_add, BitVec.toNat_shiftLeft, Nat.shiftLeft_eq, Nat.pow_one, Nat.mul_two]

theorem carry_turns_shl (c : Nat) (x : Shifted w) :
    (turns shlTurn (c + 1) x).carry = (shlBy x.value (c + 1)).carry := by
  rw [turns_succ]
  show (turns shlTurn c x).value.msb = _
  rw [value_turns_shl, BitVec.msb_shiftLeft, BitVec.getMsbD_eq_getLsbD]
  show _ = (decide (c + 1 ≤ w) && x.value.getLsbD (w - (c + 1)))
  rw [Nat.sub_sub, Nat.add_comm 1 c]
  rfl

theorem value_turns_shr (c : Nat) (x : Shifted w) : (turns shrTurn c x).value = x.value >>> c := by
  induction c with
  | zero => simp [turns]
  | succ c ih =>
    rw [turns_succ, shrTurn, ih]
    apply BitVec.eq_of_getLsbD_eq
    intro i hi
    rw [getLsbD_half, BitVec.getLsbD_ushiftRight, BitVec.getLsbD_ushiftRight]
    congr 1
    omega

theorem carry_turns_shr (c : Nat) (x : Shifted w) :
    (turns shrTurn (c + 1) x).carry = (shrBy x.value (c + 1)).carry := by
  rw [turns_succ]
  show (turns shrTurn c x).value.getLsbD 0 = (decide (c + 1 ≤ w) && x.value.getLsbD c)
  rw [value_turns_shr, BitVec.getLsbD_ushiftRight]
  by_cases hc : c < w
  · simp [hc]
  · simp [hc, BitVec.getLsbD_of_ge x.value c (by omega)]

theorem value_turns_sar (c : Nat) (x : Shifted w) : (turns sarTurn c x).value = x.value.sshiftRight c := by
  induction c with
  | zero => simp [turns]
  | succ c ih =>
    have hhalf : (x.value.sshiftRight c).toInt / (2 : Int) = (x.value.sshiftRight c).toInt >>> (1 : Nat) := by
      rw [Int.shiftRight_eq_div_pow]
      rfl
    rw [turns_succ, sarTurn, ih, BitVec.sshiftRight_add, hhalf]
    rfl

theorem carry_turns_sar (hw : 0 < w) (c : Nat) (x : Shifted w) :
    (turns sarTurn (c + 1) x).carry = (sarBy x.value (c + 1)).carry := by
  rw [turns_succ]
  show (turns sarTurn c x).value.getLsbD 0 = (if c + 1 ≤ w then x.value.getLsbD c else x.value.msb)
  rw [value_turns_sar, BitVec.getLsbD_sshiftRight]
  simp [hw.ne']

/-! ### ROL and ROR -/

theorem getLsbD_rotl (a : BitVec w) {k : Nat} (hk : k ≤ w) (i : Nat) :
    (rotl a k).getLsbD i = (decide (i < w) && if i < k then a.getLsbD (i + w - k) else a.getLsbD (i - k)) := by
  rw [rotl, BitVec.getLsbD_or, BitVec.getLsbD_shiftLeft, BitVec.getLsbD_ushiftRight]
  by_cases hi : i < w
  · by_cases hik : i < k
    · simp [hi, hik, show w - k + i = i + w - k by omega]
    · simp [hi, hik, BitVec.getLsbD_of_ge a (w - k + i) (by omega)]
  · simp [hi, BitVec.getLsbD_of_ge a (w - k + i) (by omega)]

theorem rotl_zero (a : BitVec w) : rotl a 0 = a := by
  apply BitVec.eq_of_getLsbD_eq
  intro i hi
  rw [getLsbD_rotl a (Nat.zero_le w), if_neg (Nat.not_lt_zero i), decide_eq_true hi, Bool.true_and, Nat.sub_zero]

theorem rotl_width (a : BitVec w) : rotl a w = a := by
  apply BitVec.eq_of_getLsbD_eq
  intro i hi
  rw [getLsbD_rotl a (Nat.le_refl w), if_pos hi, decide_eq_true hi, Bool.true_and, Nat.add_sub_cancel]

/-- The top bit after a rotation is the bottom bit after one more. -/
theorem msb_rotl (a : BitVec w) {k : Nat} (hk : k < w) : (rotl a k).msb = (rotl a (k + 1)).getLsbD 0 := by
  rw [BitVec.msb_eq_getLsbD_last, getLsbD_rotl a hk.le, getLsbD_rotl a hk, if_neg (by omega), if_pos (by omega)]
  simp only [show w - 1 < w by omega, show 0 < w by omega, decide_true, Bool.true_and]
  congr 1
  omega

/-- One more place to the left moves every bit up by one. -/
theorem getLsbD_rotl_succ (a : BitVec w) {k : Nat} (hk : k < w) {i : Nat} (hi : i + 1 < w) :
    (rotl a (k + 1)).getLsbD (i + 1) = (rotl a k).getLsbD i := by
  rw [getLsbD_rotl a (k := k + 1) hk, getLsbD_rotl a hk.le, decide_eq_true hi, decide_eq_true (Nat.lt_of_succ_lt hi),
    show i + 1 + w - (k + 1) = i + w - k by omega, Nat.add_sub_add_right]
  simp only [Nat.add_lt_add_iff_right]

/-- The body of ROL's loop is one more place to the left. -/
theorem value_rolTurn (a : BitVec w) {k : Nat} (hk : k < w) (b : Bool) :
    (rolTurn { value := rotl a k, carry := b }).value = rotl a (k + 1) := by
  apply BitVec.eq_of_getLsbD_eq
  intro i hi
  rw [rolTurn, getLsbD_double, decide_eq_true hi, Bool.true_and]
  cases i with
  | zero => exact msb_rotl a hk
  | succ i => exact (getLsbD_rotl_succ a hk hi).symm

/-- The body of ROR's loop is one place fewer to the left. -/
theorem value_rorTurn (a : BitVec w) {k : Nat} (hk : k < w) (b : Bool) :
    (rorTurn { value := rotl a (k + 1), carry := b }).value = rotl a k := by
  apply BitVec.eq_of_getLsbD_eq
  intro i hi
  rw [rorTurn, getLsbD_withMsb, getLsbD_half, decide_eq_true hi, Bool.true_and]
  by_cases htop : i = w - 1
  · rw [if_pos htop, htop, ← BitVec.msb_eq_getLsbD_last, msb_rotl a hk]
  · rw [if_neg htop]
    exact getLsbD_rotl_succ a hk (by omega)

theorem succ_mod_eq (hw : 0 < w) (c : Nat) : (c + 1) % w = if c % w + 1 = w then 0 else c % w + 1 := by
  have hlt := Nat.mod_lt c hw
  rw [← Nat.mod_add_mod]
  split
  · next h => rw [h, Nat.mod_self]
  · exact Nat.mod_eq_of_lt (by omega)

/-- A rotation by a whole turn and one by nothing are the same. -/
theorem rotl_succ_mod (hw : 0 < w) (a : BitVec w) (c : Nat) : rotl a ((c + 1) % w) = rotl a (c % w + 1) := by
  rw [succ_mod_eq hw]
  split
  · next h => rw [h, rotl_zero, rotl_width]
  · rfl

theorem rotl_sub_succ_mod (hw : 0 < w) (a : BitVec w) (c : Nat) :
    rotl a (w - (c + 1) % w) = rotl a (w - (c % w + 1)) := by
  rw [succ_mod_eq hw]
  split
  · next h => rw [h, Nat.sub_self, Nat.sub_zero, rotl_zero, rotl_width]
  · rfl

theorem value_turns_rol (hw : 0 < w) (c : Nat) (x : Shifted w) :
    (turns rolTurn c x).value = rotl x.value (c % w) := by
  induction c with
  | zero => rw [turns, Nat.zero_mod, rotl_zero]
  | succ c ih =>
    rw [turns_succ, rotl_succ_mod hw, ← value_rolTurn x.value (Nat.mod_lt c hw) (turns rolTurn c x).carry, ← ih]

theorem value_turns_ror (hw : 0 < w) (c : Nat) (x : Shifted w) :
    (turns rorTurn c x).value = rotl x.value (w - c % w) := by
  induction c with
  | zero => rw [turns, Nat.zero_mod, Nat.sub_zero, rotl_width]
  | succ c ih =>
    have hlt := Nat.mod_lt c hw
    rw [turns_succ, rotl_sub_succ_mod hw,
      ← value_rorTurn x.value (k := w - (c % w + 1)) (by omega) (turns rorTurn c x).carry,
      show w - (c % w + 1) + 1 = w - c % w by omega, ← ih]

theorem carry_turns_rol (hw : 0 < w) (c : Nat) (x : Shifted w) :
    (turns rolTurn (c + 1) x).carry = (rolBy x.value (c + 1)).carry := by
  rw [turns_succ]
  show (turns rolTurn c x).value.msb = (rotl x.value ((c + 1) % w)).getLsbD 0
  rw [value_turns_rol hw, msb_rotl _ (Nat.mod_lt c hw), rotl_succ_mod hw]

theorem carry_turns_ror (hw : 0 < w) (c : Nat) (x : Shifted w) :
    (turns rorTurn (c + 1) x).carry = (rorBy x.value (c + 1)).carry := by
  have hlt := Nat.mod_lt c hw
  rw [turns_succ]
  show (turns rorTurn c x).value.getLsbD 0 = (rotl x.value (w - (c + 1) % w)).msb
  rw [value_turns_ror hw, rotl_sub_succ_mod hw, msb_rotl _ (by omega), show w - (c % w + 1) + 1 = w - c % w by omega]

/-! ### RCL and RCR: ROL and ROR of the value with the carry above it -/

/-- `CF : value`, as 42_logic_shift.md R226 writes it. -/
def joined (x : Shifted w) : BitVec (w + 1) := withCarry x.carry x.value

theorem getLsbD_joined (x : Shifted w) (i : Nat) :
    (joined x).getLsbD i = if i = w then x.carry else x.value.getLsbD i := BitVec.getLsbD_cons _ _ _

theorem value_eq_of_joined (x : Shifted w) : x.value = (joined x).setWidth w := by
  apply BitVec.eq_of_getLsbD_eq
  intro i hi
  rw [BitVec.getLsbD_setWidth, getLsbD_joined, if_neg (by omega), decide_eq_true hi, Bool.true_and]

theorem carry_eq_of_joined (x : Shifted w) : x.carry = (joined x).msb := by
  rw [BitVec.msb_eq_getLsbD_last, getLsbD_joined, if_pos (by omega)]

theorem joined_rclTurn (hw : 0 < w) (x : Shifted w) (b : Bool) :
    joined (rclTurn x) = (rolTurn { value := joined x, carry := b }).value := by
  apply BitVec.eq_of_getLsbD_eq
  intro i hi
  rw [rolTurn, getLsbD_double, getLsbD_joined, rclTurn, getLsbD_double, decide_eq_true hi, Bool.true_and,
    ← carry_eq_of_joined, getLsbD_joined]
  by_cases htop : i = w
  · rw [if_pos htop, if_neg (by omega), if_neg (by omega), BitVec.msb_eq_getLsbD_last, htop]
  · rw [if_neg htop, decide_eq_true (show i < w by omega), Bool.true_and, if_neg (show i - 1 ≠ w by omega)]

theorem joined_rcrTurn (hw : 0 < w) (x : Shifted w) (b : Bool) :
    joined (rcrTurn x) = (rorTurn { value := joined x, carry := b }).value := by
  apply BitVec.eq_of_getLsbD_eq
  intro i hi
  rw [rorTurn, getLsbD_withMsb, getLsbD_half, getLsbD_joined, rcrTurn, getLsbD_withMsb, getLsbD_half, getLsbD_joined,
    getLsbD_joined, decide_eq_true hi, Bool.true_and, Nat.add_sub_cancel]
  by_cases htop : i = w
  · rw [if_pos htop, if_pos htop, if_neg (by omega)]
  · rw [if_neg htop, if_neg htop, decide_eq_true (show i < w by omega), Bool.true_and]
    by_cases hnext : i = w - 1
    · rw [if_pos hnext, if_pos (by omega)]
    · rw [if_neg hnext, if_neg (by omega)]

theorem joined_turns_rcl (hw : 0 < w) (c : Nat) (x : Shifted w) :
    joined (turns rclTurn c x) = rotl (joined x) (c % (w + 1)) := by
  rw [← value_turns_rol (Nat.succ_pos w) c { value := joined x, carry := false }]
  induction c with
  | zero => rfl
  | succ c ih => rw [turns_succ, turns_succ, joined_rclTurn hw, ih]

theorem joined_turns_rcr (hw : 0 < w) (c : Nat) (x : Shifted w) :
    joined (turns rcrTurn c x) = rotl (joined x) (w + 1 - c % (w + 1)) := by
  rw [← value_turns_ror (Nat.succ_pos w) c { value := joined x, carry := false }]
  induction c with
  | zero => rfl
  | succ c ih => rw [turns_succ, turns_succ, joined_rcrTurn hw, ih]

theorem joined_eq_withCarry (x : Shifted w) : joined x = withCarry x.carry x.value := rfl

/-- A value with its carry is what its joined form says. -/
theorem eq_of_joined {x : Shifted w} {y : BitVec (w + 1)} (h : joined x = y) :
    x = { value := y.setWidth w, carry := y.msb } := by
  rw [← h, ← value_eq_of_joined, ← carry_eq_of_joined]

theorem turns_rcl (hw : 0 < w) (c : Nat) (x : Shifted w) : turns rclTurn c x = rclBy x.carry x.value c :=
  eq_of_joined (joined_turns_rcl hw c x)

theorem turns_rcr (hw : 0 < w) (c : Nat) (x : Shifted w) : turns rcrTurn c x = rcrBy x.carry x.value c :=
  eq_of_joined (joined_turns_rcr hw c x)

/-! ### A closed form stands for a loop -/

/-- `r` is what `c` turns of a loop leave, but for the carry of no turn at all, which is the old one. -/
def ClosesLoop (turn : Shifted w → Shifted w) (c : Nat) (x r : Shifted w) : Prop :=
  (turns turn c x).value = r.value ∧ (c ≠ 0 → (turns turn c x).carry = r.carry)

theorem closesLoop_of_succ {turn : Shifted w → Shifted w} {x : Shifted w} {by_ : Nat → Shifted w}
    (hv : ∀ c, (turns turn c x).value = (by_ c).value) (hc : ∀ c, (turns turn (c + 1) x).carry = (by_ (c + 1)).carry)
    (c : Nat) : ClosesLoop turn c x (by_ c) := by
  refine ⟨hv c, fun h => ?_⟩
  cases c with
  | zero => exact absurd rfl h
  | succ c => exact hc c

theorem closesLoop_shl (c : Nat) (x : Shifted w) : ClosesLoop shlTurn c x (shlBy x.value c) :=
  closesLoop_of_succ (fun c => value_turns_shl c x) (fun c => carry_turns_shl c x) c

theorem closesLoop_shr (c : Nat) (x : Shifted w) : ClosesLoop shrTurn c x (shrBy x.value c) :=
  closesLoop_of_succ (fun c => value_turns_shr c x) (fun c => carry_turns_shr c x) c

theorem closesLoop_sar (hw : 0 < w) (c : Nat) (x : Shifted w) : ClosesLoop sarTurn c x (sarBy x.value c) :=
  closesLoop_of_succ (fun c => value_turns_sar c x) (fun c => carry_turns_sar hw c x) c

theorem closesLoop_rol (hw : 0 < w) (c : Nat) (x : Shifted w) : ClosesLoop rolTurn c x (rolBy x.value c) :=
  closesLoop_of_succ (fun c => value_turns_rol hw c x) (fun c => carry_turns_rol hw c x) c

theorem closesLoop_ror (hw : 0 < w) (c : Nat) (x : Shifted w) : ClosesLoop rorTurn c x (rorBy x.value c) :=
  closesLoop_of_succ (fun c => value_turns_ror hw c x) (fun c => carry_turns_ror hw c x) c

theorem closesLoop_rcl (hw : 0 < w) (c : Nat) (x : Shifted w) : ClosesLoop rclTurn c x (rclBy x.carry x.value c) := by
  rw [← turns_rcl hw]
  exact ⟨rfl, fun _ => rfl⟩

theorem closesLoop_rcr (hw : 0 < w) (c : Nat) (x : Shifted w) : ClosesLoop rcrTurn c x (rcrBy x.carry x.value c) := by
  rw [← turns_rcr hw]
  exact ⟨rfl, fun _ => rfl⟩

/-! ### The flags -/

/-- What a shift's operation answers, by its loop. -/
def OpTurns (turn : (w : Nat) → Shifted w → Shifted w) (c : Nat)
    (flags : Flags → Flags → (w : Nat) → Shifted w → Prop) (op : UnaryOp) : Prop :=
  ∀ (w : Nat) (a : BitVec w) (f : Flags), 0 < w →
    (op w a f).1 = (turns (turn w) c { value := a, carry := f.cf }).value
    ∧ (op w a f).2.cf = (turns (turn w) c { value := a, carry := f.cf }).carry
    ∧ flags f (op w a f).2 w (turns (turn w) c { value := a, carry := f.cf })
    ∧ controlFlagsKept f (op w a f).2

theorem definedForOne_one {c : Nat} (h : c = 1) (o : Bool) (d : Word) : definedForOne c o d = o := if_pos h

variable {turn : Shifted w → Shifted w} {c : Nat} {a : BitVec w} {f : Flags} {r : Shifted w}

theorem ClosesLoop.eq {x : Shifted w} (h : ClosesLoop turn c x r) (hc : c ≠ 0) : turns turn c x = r := by
  obtain ⟨hvalue, hcarry⟩ := h
  have hcarry' := hcarry hc
  cases hx : turns turn c x
  cases r
  simp_all

/-- A shift that closes its loop, with an OF that is `top` of the outcome after a count of 1. -/
theorem Flags.shift_spec (h : ClosesLoop turn c { value := a, carry := f.cf } r) {o : Bool} {top : Shifted w → Bool}
    (ho : c = 1 → o = top r) (d : Word) :
    r.value = (turns turn c { value := a, carry := f.cf }).value
      ∧ (f.shift c r o d).cf = (turns turn c { value := a, carry := f.cf }).carry
      ∧ shiftFlags (f.shift c r o d) c (turns turn c { value := a, carry := f.cf })
          (top (turns turn c { value := a, carry := f.cf }))
      ∧ controlFlagsKept f (f.shift c r o d) := by
  by_cases hc : c = 0
  · subst hc
    exact ⟨h.1.symm, rfl, ⟨fun h => absurd rfl h, fun h => absurd h (by decide)⟩, rfl, rfl, rfl⟩
  · rw [h.eq hc, Flags.shift, if_neg hc]
    exact ⟨rfl, rfl, ⟨fun _ => resultFlags_of rfl rfl rfl, ho⟩, rfl, rfl, rfl⟩

/-- A rotate that closes its loop, likewise. -/
theorem Flags.rotate_spec (h : ClosesLoop turn c { value := a, carry := f.cf } r) {o : Bool} {top : Shifted w → Bool}
    (ho : c = 1 → o = top r) (d : Word) :
    r.value = (turns turn c { value := a, carry := f.cf }).value
      ∧ (f.rotate c r o d).cf = (turns turn c { value := a, carry := f.cf }).carry
      ∧ rotateFlags f (f.rotate c r o d) c (top (turns turn c { value := a, carry := f.cf }))
      ∧ controlFlagsKept f (f.rotate c r o d) := by
  by_cases hc : c = 0
  · subst hc
    exact ⟨h.1.symm, rfl, ⟨rfl, rfl, rfl, rfl, fun h => absurd h (by decide)⟩, rfl, rfl, rfl⟩
  · rw [h.eq hc, Flags.rotate, if_neg hc]
    exact ⟨rfl, rfl, ⟨rfl, rfl, rfl, rfl, ho⟩, rfl, rfl, rfl⟩

theorem opTurns_shl (c : Nat) (d : Word) :
    OpTurns (fun _ => shlTurn) c (fun _ g _ x => shiftFlags g c x (topDiffersFromCarry x)) (shlOp c d) :=
  fun _ a f _ => Flags.shift_spec (closesLoop_shl c { value := a, carry := f.cf }) (top := topDiffersFromCarry)
    (fun h => definedForOne_one h _ d) d

theorem opTurns_shr (c : Nat) (d : Word) :
    OpTurns (fun _ => shrTurn) c (fun _ g _ x => shiftFlags g c x (topTwoDiffer x)) (shrOp c d) :=
  fun _ a f _ => Flags.shift_spec (closesLoop_shr c { value := a, carry := f.cf }) (top := topTwoDiffer)
    (fun h => definedForOne_one h _ d) d

/-- SAR clears OF for every count but 0. -/
theorem opTurns_sar (c : Nat) (d : Word) :
    OpTurns (fun _ => sarTurn) c (fun _ g _ x => shiftFlags g c x false ∧ (c ≠ 0 → g.ofl = false)) (sarOp c d) := by
  intro w a f hw
  obtain ⟨hvalue, hcf, hflags, hkept⟩ :=
    Flags.shift_spec (closesLoop_sar hw c { value := a, carry := f.cf }) (o := false) (top := fun _ => false)
      (fun _ => rfl) d
  refine ⟨hvalue, hcf, ⟨hflags, fun hc => ?_⟩, hkept⟩
  show (f.shift c (sarBy a c) false d).ofl = false
  rw [Flags.shift, if_neg hc]

theorem opTurns_rol (c : Nat) (d : Word) :
    OpTurns (fun _ => rolTurn) c (fun f g _ x => rotateFlags f g c (topDiffersFromCarry x)) (rolOp c d) :=
  fun _ a f hw => Flags.rotate_spec (closesLoop_rol hw c { value := a, carry := f.cf }) (top := topDiffersFromCarry)
    (fun h => definedForOne_one h _ d) d

theorem opTurns_ror (c : Nat) (d : Word) :
    OpTurns (fun _ => rorTurn) c (fun f g _ x => rotateFlags f g c (topTwoDiffer x)) (rorOp c d) :=
  fun _ a f hw => Flags.rotate_spec (closesLoop_ror hw c { value := a, carry := f.cf }) (top := topTwoDiffer)
    (fun h => definedForOne_one h _ d) d

theorem opTurns_rcl (c : Nat) (d : Word) :
    OpTurns (fun _ => rclTurn) c (fun f g _ x => rotateFlags f g c (topDiffersFromCarry x)) (rclOp c d) :=
  fun _ a f hw => Flags.rotate_spec (closesLoop_rcl hw c { value := a, carry := f.cf }) (top := topDiffersFromCarry)
    (fun h => definedForOne_one h _ d) d

theorem opTurns_rcr (c : Nat) (d : Word) :
    OpTurns (fun _ => rcrTurn) c (fun f g _ x => rotateFlags f g c (topTwoDiffer x)) (rcrOp c d) :=
  fun _ a f hw => Flags.rotate_spec (closesLoop_rcr hw c { value := a, carry := f.cf }) (top := topTwoDiffer)
    (fun h => definedForOne_one h _ d) d

/-! ### The instructions -/

/-- A shift instruction is its operation on the operand and a draw. -/
theorem State.shift_turned {s : State} {f : RmForm} {n : Count} {c : Nat} (hc : shiftCount (s.countByte n) = c)
    {op : ShiftOp} {turn : (w : Nat) → Shifted w → Shifted w}
    {flags : Flags → Flags → (w : Nat) → Shifted w → Prop}
    (hop : ∀ d, OpTurns turn c flags (op c d)) :
    turned s (s.shift op f n) turn c (fun w x => flags s.flags (s.shift op f n).flags w x) (rmOperand s f) := by
  have hspec := s.unary_spec (op c s.draw.1) f
  have hrun : s.shift op f n = (s.unary (op c s.draw.1) f).draw.2 := by rw [State.shift, hc]
  rw [hrun]
  generalize rmOperand s f = operand at hspec ⊢
  cases operand with
  | byte dst a =>
    obtain ⟨hwrote, hflags, hrest⟩ := hspec
    obtain ⟨hvalue, hcf, hof, hkept⟩ := hop s.draw.1 8 a s.flags (by decide)
    rw [← hflags] at hcf hof hkept
    rw [hvalue] at hwrote
    exact ⟨wrote8_draw hwrote, hcf, hof, hkept, sameRest_trans hrest (sameRest_draw _)⟩
  | word dst a =>
    obtain ⟨hwrote, hflags, hrest⟩ := hspec
    obtain ⟨hvalue, hcf, hof, hkept⟩ := hop s.draw.1 16 a s.flags (by decide)
    rw [← hflags] at hcf hof hkept
    rw [hvalue] at hwrote
    exact ⟨wrote16_draw hwrote, hcf, hof, hkept, sameRest_trans hrest (sameRest_draw _)⟩

/-- The count of the statements is the count the model runs. -/
theorem shiftCount_eq {b : Byte} {c : Nat} (hlow : b.toNat < 32 → c = b.toNat)
    (hwhole : 32 ≤ b.toNat → Config.shiftCountMask = .whole → c = b.toNat)
    (hlow5 : 32 ≤ b.toNat → Config.shiftCountMask = .low5 → c = b.toNat % 32) : shiftCount b = c := by
  unfold shiftCount
  split
  · next h => exact (hlow h).symm
  · next h =>
    split
    · next hmask => exact (hwhole (Nat.le_of_not_lt h) hmask).symm
    · next hmask => exact (hlow5 (Nat.le_of_not_lt h) hmask).symm

/-- Settles O41. -/
theorem shifts : Obligations.Shifts := by
  intro f n s b c hb hlow hwhole hlow5
  have hbyte : b = s.countByte n := hb.trans (by cases n <;> rfl)
  have hc : shiftCount (s.countByte n) = c := hbyte ▸ shiftCount_eq hlow hwhole hlow5
  exact ⟨⟨_, rfl, State.shift_turned hc (opTurns_shl c)⟩, ⟨_, rfl, State.shift_turned hc (opTurns_shr c)⟩,
    ⟨_, rfl, State.shift_turned hc (opTurns_sar c)⟩⟩

/-- Settles O42. -/
theorem rotates : Obligations.Rotates := by
  intro f n s b c hb hlow hwhole hlow5
  have hbyte : b = s.countByte n := hb.trans (by cases n <;> rfl)
  have hc : shiftCount (s.countByte n) = c := hbyte ▸ shiftCount_eq hlow hwhole hlow5
  exact ⟨⟨_, rfl, State.shift_turned hc (opTurns_rol c)⟩, ⟨_, rfl, State.shift_turned hc (opTurns_ror c)⟩,
    ⟨_, rfl, State.shift_turned hc (opTurns_rcl c)⟩, ⟨_, rfl, State.shift_turned hc (opTurns_rcr c)⟩⟩

end Sys2Proof.Machine
end

section
/-! PROOF. Data transfer, NOT, and processor control: O21, O22, O23, O24, O26, O28, O40, O55, O56, O57. -/

namespace Sys2Proof.Machine

/-! ### MOV -/

/-- A destination written after reads: the flags and the rest are as before. -/
theorem Quiet.moved8 {s r : State} (h : Quiet s r) (l : Loc Reg8) (v : Byte) :
    Machine.wrote8 s (r.write8 l v) l v ∧ (r.write8 l v).flags = s.flags ∧ Machine.sameRest s (r.write8 l v) := by
  obtain ⟨⟨-, -, -, hflags, -⟩, -⟩ := id h
  exact ⟨h.wrote8 l v, by rw [State.write8_flags, hflags], sameRest_trans h.sameRest (sameRest_write8 r l v)⟩

theorem Quiet.moved16 {s r : State} (h : Quiet s r) (l : Loc Reg16) (v : Word) :
    Machine.wrote16 s (r.write16 l v) l v ∧ (r.write16 l v).flags = s.flags ∧ Machine.sameRest s (r.write16 l v) := by
  obtain ⟨⟨-, -, -, hflags, -⟩, -⟩ := id h
  exact ⟨h.wrote16 l v, by rw [State.write16_flags, hflags], sameRest_trans h.sameRest (sameRest_write16 r l v)⟩

/-- Settles O21, form by form. -/
theorem movWritesDestination : Obligations.MovWritesDestination := by
  intro f s
  cases f
  case ebGb e g => exact ⟨_, rfl, (Quiet.refl s).moved8 (s.loc e) (s.reg8 g)⟩
  case evGv e g => exact ⟨_, rfl, (Quiet.refl s).moved16 (s.loc e) (s.reg16 g)⟩
  case gbEb g e => exact ⟨_, rfl, (Quiet.read8 s (s.loc e)).moved8 (.reg g) _⟩
  case gvEv g e => exact ⟨_, rfl, (Quiet.read16 s (s.loc e)).moved16 (.reg g) _⟩
  case alOb off => exact ⟨_, rfl, (Quiet.read8 s (.mem (s.overridden .ds) off)).moved8 (.reg .al) _⟩
  case axOv off => exact ⟨_, rfl, (Quiet.read16 s (.mem (s.overridden .ds) off)).moved16 (.reg .ax) _⟩
  case obAl off => exact ⟨_, rfl, (Quiet.refl s).moved8 (.mem (s.overridden .ds) off) (s.reg8 .al)⟩
  case ovAx off => exact ⟨_, rfl, (Quiet.refl s).moved16 (.mem (s.overridden .ds) off) (s.reg16 .ax)⟩
  case gbIb g imm => exact ⟨_, rfl, (Quiet.refl s).moved8 (.reg g) imm⟩
  case gvIw g imm => exact ⟨_, rfl, (Quiet.refl s).moved16 (.reg g) imm⟩
  case ebIb e imm => exact ⟨_, rfl, (Quiet.refl s).moved8 (s.loc e) imm⟩
  case evIw e imm => exact ⟨_, rfl, (Quiet.refl s).moved16 (s.loc e) imm⟩

theorem Quiet.sameControl {s r : State} (h : Quiet s r) : sameControl s r := by
  obtain ⟨-, -, -, hcontrol⟩ := h.sameRest
  exact hcontrol

/-- Settles O22. -/
theorem movSegmentRegister : Obligations.MovSegmentRegister := by
  intro e s
  refine ⟨fun r => ⟨_, rfl, (Quiet.refl s).moved16 (s.loc e) (s.sreg r)⟩, fun r => ?_⟩
  have hread := Quiet.read16 s (s.loc e)
  obtain ⟨⟨-, hseg, hip, hflags, -⟩, -⟩ := id hread
  refine ⟨_, rfl, ?_, rfl, hip, hflags, hread.wroteNothing, hread.sameControl⟩
  cases r
  all_goals
    rw [← hseg]
    rfl

/-! ### The stack -/

theorem Quiet.pushes {s r : State} (h : Quiet s r) (v : Word) :
    pushed s (r.push16 v) v ∧ (r.push16 v).flags = s.flags ∧ Machine.sameRest s (r.push16 v) := by
  obtain ⟨⟨hgpr, hseg, -, hflags, -⟩, ⟨-, -, hmem, -, hdevices⟩, -⟩ := id h
  exact ⟨pushed_of hgpr hseg hmem hdevices (pushed_push16 r v), by rw [State.push16_flags, hflags],
    sameRest_trans h.sameRest (sameRest_push16 r v)⟩

/-- Settles O23. -/
theorem pushes : Obligations.Pushes := by
  intro s
  refine ⟨fun r => ?_, fun e => ⟨_, rfl, (Quiet.read16 s (s.loc e)).pushes _⟩,
    fun r => ⟨_, rfl, (Quiet.refl s).pushes _⟩,
    fun w => ⟨_, rfl, (Quiet.refl s).pushes w⟩, fun b => ⟨_, rfl, (Quiet.refl s).pushes (b.signExtend 16)⟩,
    ⟨_, s.draw.1, rfl, (Quiet.draw s).pushes _⟩⟩
  have hvalue : (s.setReg16 .sp (s.gpr.sp - 2)).reg16 r = if r = .sp then s.gpr.sp - 2 else s.reg16 r :=
    State.reg16_setReg16 s .sp r _
  rw [← hvalue]
  exact ⟨_, rfl, (Quiet.refl s).pushes _⟩

/-- A pop beside what it reads: SP is 2 higher, nothing else of the registers, and of memory nothing, has changed. -/
theorem RegsOnly.pop16 (s : State) : RegsOnly s s.pop16.2 := ⟨State.pop16_mem s, sameRest_pop16 s⟩

theorem State.reg16_pop16 (s : State) (q : Reg16) :
    s.pop16.2.reg16 q = if q = .sp then s.gpr.sp + 2 else s.reg16 q := by
  rw [State.reg16, State.pop16_gpr]
  cases q <;> rfl

/-- Settles O24. -/
theorem pops : Obligations.Pops := by
  intro s v hv
  have hword : s.pop16.1 = v := hv
  have hpop := RegsOnly.pop16 s
  obtain ⟨-, hip, -, hcontrol⟩ := hpop.sameRest
  refine ⟨fun r =>
      ⟨_, rfl, fun q => ?_, (hpop.setReg16 r _).memKept, State.pop16_flags s, (hpop.setReg16 r _).sameRest⟩,
    fun e => ⟨_, rfl, ?_, ?_, ?_⟩,
    fun r => ⟨_, rfl, ?_, State.pop16_gpr s, rfl, hpop.memKept, hip, State.pop16_flags s, hcontrol⟩,
    ⟨_, rfl, by rw [← hword]; rfl, State.pop16_gpr s, hpop.memKept, (hpop.setFlags _).sameRest⟩⟩
  · rw [State.reg16_setReg16, State.reg16_pop16, hword]
  · rw [← hword]
    exact wrote16_of (s' := s.pop16.2) (State.pop16_gpr s) (State.pop16_mem s) (State.pop16_devices s)
      (wrote16_write16 _ _ _)
  · rw [State.write16_flags, State.pop16_flags]
  · exact sameRest_trans hpop.sameRest (sameRest_write16 _ _ _)
  · show s.pop16.2.seg.load r s.pop16.1 = _
    rw [State.pop16_seg, hword]
    cases r <;> rfl

/-! ### Exchange -/

theorem gprKept.setReg8 {s t : State} {written : List Reg16} (h : gprKept s t written) {r : Reg8}
    (hr : wholeOf r ∈ written) (v : Byte) : gprKept s (t.setReg8 r v) written := by
  intro q hq
  have hne : q ≠ wholeOf r := fun e => hq (e ▸ hr)
  exact (Gpr.get_set8_of_ne t.gpr r v hne).trans (h q hq)

theorem exchanged8_write (s : State) (l : Loc Reg8) (g : Reg8) :
    exchanged8 s (((s.read8 l).2.write8 l (s.reg8 g)).setReg8 g (s.read8 l).1) l g (s.read8 l).1 := by
  have hwrote := (Quiet.read8 s l).wrote8 l (s.reg8 g)
  cases l with
  | reg r =>
    obtain ⟨hreg, hkept, hmem⟩ := hwrote
    refine ⟨fun q => ?_, ?_, hmem⟩
    · rw [State.reg8_setReg8, hreg]
      rfl
    · refine gprKept.setReg8 ?_ (.head _) _
      exact (gprKept_of_eq rfl _).setReg8 (t := s) (.tail _ (.head _)) _
  | mem seg off =>
    obtain ⟨hgpr, hstored⟩ := hwrote
    refine ⟨fun q => ?_, (gprKept_of_eq hgpr _).setReg8 (.head _) _, hstored⟩
    rw [State.reg8_setReg8, State.reg8, hgpr]
    rfl

theorem exchanged16_write (s : State) (l : Loc Reg16) (g : Reg16) :
    exchanged16 s (((s.read16 l).2.write16 l (s.reg16 g)).setReg16 g (s.read16 l).1) l g (s.read16 l).1 := by
  have hwrote := (Quiet.read16 s l).wrote16 l (s.reg16 g)
  cases l with
  | reg r =>
    obtain ⟨hreg, hmem⟩ := hwrote
    refine ⟨fun q => ?_, hmem⟩
    rw [State.reg16_setReg16, hreg]
    rfl
  | mem seg off =>
    obtain ⟨hgpr, hstored⟩ := hwrote
    refine ⟨fun q => ?_, hstored⟩
    rw [State.reg16_setReg16, State.reg16, hgpr]
    rfl

/-- Settles O26. -/
theorem exchangeAndTranslate : Obligations.ExchangeAndTranslate := by
  intro s
  refine ⟨fun e g => ?_, fun e g => ?_, fun r => ?_, rfl, ?_⟩
  · obtain ⟨-, hflags, hrest⟩ := (Quiet.read8 s (s.loc e)).moved8 (s.loc e) (s.reg8 g)
    exact ⟨_, rfl, exchanged8_write s (s.loc e) g, hflags, sameRest_trans hrest (sameRest_setReg8 _ _ _)⟩
  · obtain ⟨-, hflags, hrest⟩ := (Quiet.read16 s (s.loc e)).moved16 (s.loc e) (s.reg16 g)
    exact ⟨_, rfl, exchanged16_write s (s.loc e) g, hflags, sameRest_trans hrest (sameRest_setReg16 _ _ _)⟩
  · have hrest := sameRest_trans (sameRest_setReg16 s .ax (s.reg16 r)) (sameRest_setReg16 _ r (s.reg16 .ax))
    exact ⟨_, rfl, exchanged16_write s (.reg .ax) r, rfl, hrest⟩
  · exact ⟨_, rfl, (Quiet.memRead8 s _ _).moved8 (.reg .al) _⟩

/-! ### Effective addresses -/

theorem State.baseValue_eq (s : State) (b : Base) : ((s.baseValue b).toNat : Int) = addressSum.baseSum s b % 65536 := by
  cases b <;> simp only [State.baseValue, addressSum.baseSum] <;> bv_omega

theorem State.ea_eq (s : State) (m : Mem) : ((s.ea m).toNat : Int) = addressSum s m % 65536 := by
  cases m with
  | base b => exact s.baseValue_eq b
  | direct off =>
    have hlt := off.isLt
    simp only [State.ea, addressSum]
    omega
  | disp8 b d =>
    have hbase := s.baseValue_eq b
    have hdisp : ((sext16 d).toNat : Int) = d.toInt % 65536 := by
      rw [sext16, BitVec.signExtend, BitVec.toNat_ofInt, Int.toNat_of_nonneg (Int.emod_nonneg _ (by decide))]
      rfl
    simp only [State.ea, addressSum, BitVec.toNat_add]
    omega
  | disp16 b d =>
    have hbase := s.baseValue_eq b
    simp only [State.ea, addressSum, BitVec.toNat_add]
    omega

/-- LDS and LES in plain memory: a register and a segment register. -/
theorem loadPointer_spec {s : State} (g : Reg16) (m : Mem) (r : LoadSReg) :
    ∃ t, t = (s.setReg16 g (s.plainPointer m).1).loadSReg r (s.plainPointer m).2
      ∧ (∀ q, t.reg16 q = if q = g then (s.plainPointer m).1 else s.reg16 q)
      ∧ t.seg = s.seg.load r (s.plainPointer m).2
      ∧ t.ip = s.ip ∧ t.inhibit = s.inhibit ∧ t.flags = s.flags ∧ memKept s t ∧ sameControl s t :=
  ⟨_, rfl, fun q => State.reg16_setReg16 s g q _, rfl, rfl, rfl, rfl, fun _ => rfl, rfl, rfl, rfl, sameLines_refl s⟩

/-- Settles O28. -/
theorem effectiveAddresses : Obligations.EffectiveAddresses := by
  intro g m s
  refine ⟨s.ea_eq m, ?_, rfl, fun h => ⟨?_, ?_⟩⟩
  · unfold State.segRm State.overridden
    cases s.latches.override with
    | some r => rfl
    | none => cases m with
      | direct off => rfl
      | base b => cases b <;> rfl
      | disp8 b d => cases b <;> rfl
      | disp16 b d => cases b <;> rfl
  · obtain ⟨t, ht, hspec⟩ := loadPointer_spec (s := s) g m .ds
    refine ⟨t, ?_, hspec⟩
    rw [ht]
    show execLds g m s = _
    rw [execLds, State.readPointer_plain h]
  · obtain ⟨t, ht, hspec⟩ := loadPointer_spec (s := s) g m .es
    refine ⟨t, ?_, hspec⟩
    rw [ht]
    show execLes g m s = _
    rw [execLes, State.readPointer_plain h]

/-! ### NOT -/

/-- Settles O40. -/
theorem notInvertsOperand : Obligations.NotInvertsOperand := by
  intro f s
  refine ⟨by cases f <;> rfl, _, rfl, ?_⟩
  have hspec := s.unary_spec notOp f
  generalize rmOperand s f = operand at hspec ⊢
  cases operand <;> exact hspec

/-! ### Processor control -/

/-- Settles O55. -/
theorem processorControl : Obligations.ProcessorControl := by
  intro s
  refine ⟨rfl, rfl, rfl, rfl, fun op e => ⟨fun htrap => ?_, fun htrap => ?_⟩⟩
  · show execEsc op e s = _
    rw [execEsc, htrap, if_pos rfl]
  · refine ⟨s.escAccess e, ?_, ?_⟩
    · show execEsc op e s = _
      rw [execEsc, htrap, if_neg Bool.false_ne_true]
    · cases e with
      | reg r => exact ⟨(Quiet.refl s).wroteNothing, rfl, sameRest_refl s, fun _ _ => rfl, fun _ hm => nomatch hm⟩
      | mem p =>
        have hread := Quiet.memRead16 s (s.segRm p) (s.ea p)
        obtain ⟨⟨-, -, -, hflags, -⟩, -⟩ := id hread
        refine ⟨hread.wroteNothing, hflags, hread.sameRest, fun _ hr => (nomatch hr), fun m hm => ?_⟩
        cases hm
        rfl

/-- Settles O56. -/
theorem prefixesSetLatches : Obligations.PrefixesSetLatches := fun _ => ⟨rfl, rfl, rfl, rfl, rfl, rfl, rfl⟩

/-- Settles O57. -/
theorem unusedEncodingFaults : Obligations.UnusedEncodingFaults := fun _ _ => rfl

end Sys2Proof.Machine
end

section
/-! PROOF. The string instructions and the ports: O27, O43, O44, O45. -/

namespace Sys2Proof.Machine

/-! ### Stepping a pointer -/

variable {s t : State} {f : Flags}

/-- After a primitive has done its work, with flags `f` that keep DF, it steps SI. -/
theorem stepSi_spec (hgpr : t.gpr = s.gpr) (hflags : t.flags = f) (hdf : f.df = s.flags.df) (h : sameRest s t)
    (n : Word) :
    (t.stepSi n).gpr = { s.gpr with si := if s.flags.df then s.gpr.si - n else s.gpr.si + n }
      ∧ (t.stepSi n).flags = f ∧ sameRest s (t.stepSi n) := by
  refine ⟨?_, hflags, sameRest_trans h (sameRest_setReg16 t .si _)⟩
  rw [State.stepSi, State.stepped, hflags, hdf, hgpr, State.setReg16_gpr, hgpr]
  rfl

theorem stepDi_spec (hgpr : t.gpr = s.gpr) (hflags : t.flags = f) (hdf : f.df = s.flags.df) (h : sameRest s t)
    (n : Word) :
    (t.stepDi n).gpr = { s.gpr with di := if s.flags.df then s.gpr.di - n else s.gpr.di + n }
      ∧ (t.stepDi n).flags = f ∧ sameRest s (t.stepDi n) := by
  refine ⟨?_, hflags, sameRest_trans h (sameRest_setReg16 t .di _)⟩
  rw [State.stepDi, State.stepped, hflags, hdf, hgpr, State.setReg16_gpr, hgpr]
  rfl

/-- Both pointers stepped. -/
theorem stepBoth_spec (hgpr : t.gpr = s.gpr) (hflags : t.flags = f) (hdf : f.df = s.flags.df) (h : sameRest s t)
    (n : Word) :
    ((t.stepSi n).stepDi n).gpr = { s.gpr with
        si := if s.flags.df then s.gpr.si - n else s.gpr.si + n
        di := if s.flags.df then s.gpr.di - n else s.gpr.di + n }
      ∧ ((t.stepSi n).stepDi n).flags = f ∧ sameRest s ((t.stepSi n).stepDi n) := by
  obtain ⟨hgpr', hflags', hrest⟩ := stepSi_spec hgpr hflags hdf h n
  refine ⟨?_, hflags', sameRest_trans hrest (sameRest_setReg16 _ .di _)⟩
  rw [State.stepDi, State.stepped, hflags', hdf, State.setReg16_gpr, hgpr']
  rfl

theorem storedByte_stepSi {seg off : Word} {v : Byte} (h : storedByte s t seg off v) (n : Word) :
    storedByte s (t.stepSi n) seg off v := h

theorem storedByte_stepDi {seg off : Word} {v : Byte} (h : storedByte s t seg off v) (n : Word) :
    storedByte s (t.stepDi n) seg off v := h

theorem storedWord_stepSi {seg off v : Word} (h : storedWord s t seg off v) (n : Word) :
    storedWord s (t.stepSi n) seg off v := h

theorem storedWord_stepDi {seg off v : Word} (h : storedWord s t seg off v) (n : Word) :
    storedWord s (t.stepDi n) seg off v := h

theorem memKept_stepSi (h : memKept s t) (n : Word) : memKept s (t.stepSi n) := h

theorem memKept_stepDi (h : memKept s t) (n : Word) : memKept s (t.stepDi n) := h

/-! ### Stores and reads of the primitives -/

/-- A byte stored after reads. -/
theorem Quiet.stores8 {s r : State} (h : Quiet s r) (seg off : Word) (v : Byte) :
    storedByte s (r.memWrite8 seg off v) seg off v ∧ (r.memWrite8 seg off v).gpr = s.gpr
      ∧ (r.memWrite8 seg off v).flags = s.flags ∧ Machine.sameRest s (r.memWrite8 seg off v) := by
  obtain ⟨⟨hgpr, hstored⟩, hflags, hrest⟩ := h.moved8 (.mem seg off) v
  exact ⟨hstored, hgpr, hflags, hrest⟩

theorem Quiet.stores16 {s r : State} (h : Quiet s r) (seg off v : Word) :
    storedWord s (r.memWrite16 seg off v) seg off v ∧ (r.memWrite16 seg off v).gpr = s.gpr
      ∧ (r.memWrite16 seg off v).flags = s.flags ∧ Machine.sameRest s (r.memWrite16 seg off v) := by
  obtain ⟨⟨hgpr, hstored⟩, hflags, hrest⟩ := h.moved16 (.mem seg off) v
  exact ⟨hstored, hgpr, hflags, hrest⟩

/-! ### MOVS, LODS and STOS -/

theorem State.movs8_spec (s : State) :
    storedByte s s.movs8 s.seg.es s.gpr.di (s.memRead8 s.srcSeg s.gpr.si).1
      ∧ s.movs8.gpr = { s.gpr with
          si := if s.flags.df then s.gpr.si - 1 else s.gpr.si + 1
          di := if s.flags.df then s.gpr.di - 1 else s.gpr.di + 1 }
      ∧ s.movs8.flags = s.flags ∧ sameRest s s.movs8 := by
  obtain ⟨hstored, hgpr, hflags, hrest⟩ := (Quiet.memRead8 s s.srcSeg s.gpr.si).stores8 s.seg.es s.gpr.di
    (s.memRead8 s.srcSeg s.gpr.si).1
  exact ⟨storedByte_stepDi (storedByte_stepSi hstored 1) 1, stepBoth_spec hgpr hflags rfl hrest 1⟩

theorem State.movs16_spec (s : State) :
    storedWord s s.movs16 s.seg.es s.gpr.di (s.memRead16 s.srcSeg s.gpr.si).1
      ∧ s.movs16.gpr = { s.gpr with
          si := if s.flags.df then s.gpr.si - 2 else s.gpr.si + 2
          di := if s.flags.df then s.gpr.di - 2 else s.gpr.di + 2 }
      ∧ s.movs16.flags = s.flags ∧ sameRest s s.movs16 := by
  obtain ⟨hstored, hgpr, hflags, hrest⟩ := (Quiet.memRead16 s s.srcSeg s.gpr.si).stores16 s.seg.es s.gpr.di
    (s.memRead16 s.srcSeg s.gpr.si).1
  exact ⟨storedWord_stepDi (storedWord_stepSi hstored 2) 2, stepBoth_spec hgpr hflags rfl hrest 2⟩

theorem State.lods8_spec (s : State) :
    (s.lods8.reg8 .al = (s.memRead8 s.srcSeg s.gpr.si).1 ∧ s.lods8.reg8 .ah = s.reg8 .ah
      ∧ s.lods8.gpr.si = (if s.flags.df then s.gpr.si - 1 else s.gpr.si + 1) ∧ gprKept s s.lods8 [.ax, .si])
      ∧ memKept s s.lods8 ∧ s.lods8.flags = s.flags ∧ sameRest s s.lods8 := by
  have hread := Quiet.memRead8 s s.srcSeg s.gpr.si
  obtain ⟨⟨hgpr, -, -, hflags, -⟩, -⟩ := id hread
  have hregs := hread.regsOnly.setReg8 .al (s.memRead8 s.srcSeg s.gpr.si).1
  obtain ⟨hreg, -⟩ := hread.wrote8 (.reg .al) (s.memRead8 s.srcSeg s.gpr.si).1
  refine ⟨⟨hreg .al, hreg .ah, ?_, ?_⟩, hregs.memKept, hflags,
    sameRest_trans hregs.sameRest (sameRest_setReg16 _ .si _)⟩
  · have hsi : ∀ v, (s.gpr.set8 .al v).si = s.gpr.si := fun v => rfl
    rw [State.lods8, State.stepSi, State.setReg16_gpr, State.stepped, State.setReg8_flags, hflags, State.setReg8_gpr,
      hgpr, hsi]
    rfl
  · exact ((gprKept_of_eq hgpr _).setReg8 (r := .al) (by decide) _).setReg16 (r := .si) (by decide) _

theorem State.lods16_spec (s : State) :
    memKept s s.lods16
      ∧ s.lods16.gpr = { s.gpr with
        ax := (s.memRead16 s.srcSeg s.gpr.si).1
        si := if s.flags.df then s.gpr.si - 2 else s.gpr.si + 2 }
      ∧ s.lods16.flags = s.flags ∧ sameRest s s.lods16 := by
  have hread := Quiet.memRead16 s s.srcSeg s.gpr.si
  obtain ⟨⟨hgpr, -, -, hflags, -⟩, -⟩ := id hread
  have hregs := hread.regsOnly.setReg16 .ax (s.memRead16 s.srcSeg s.gpr.si).1
  refine ⟨memKept_stepSi hregs.memKept 2, ?_, hflags, sameRest_trans hregs.sameRest (sameRest_setReg16 _ .si _)⟩
  rw [State.lods16, State.stepSi, State.setReg16_gpr, State.stepped, State.setReg16_flags, hflags, State.setReg16_gpr,
    hgpr]
  rfl

theorem State.stos8_spec (s : State) :
    storedByte s s.stos8 s.seg.es s.gpr.di (s.reg8 .al)
      ∧ s.stos8.gpr = { s.gpr with di := if s.flags.df then s.gpr.di - 1 else s.gpr.di + 1 }
      ∧ s.stos8.flags = s.flags ∧ sameRest s s.stos8 := by
  obtain ⟨hstored, hgpr, hflags, hrest⟩ := (Quiet.refl s).stores8 s.seg.es s.gpr.di (s.reg8 .al)
  exact ⟨storedByte_stepDi hstored 1, stepDi_spec hgpr hflags rfl hrest 1⟩

theorem State.stos16_spec (s : State) :
    storedWord s s.stos16 s.seg.es s.gpr.di s.gpr.ax
      ∧ s.stos16.gpr = { s.gpr with di := if s.flags.df then s.gpr.di - 2 else s.gpr.di + 2 }
      ∧ s.stos16.flags = s.flags ∧ sameRest s s.stos16 := by
  obtain ⟨hstored, hgpr, hflags, hrest⟩ := (Quiet.refl s).stores16 s.seg.es s.gpr.di s.gpr.ax
  exact ⟨storedWord_stepDi hstored 2, stepDi_spec hgpr hflags rfl hrest 2⟩

/-! ### CMPS and SCAS -/

theorem State.cmps8_spec (s : State) :
    memKept s s.cmps8
      ∧ s.cmps8.gpr = { s.gpr with
          si := if s.flags.df then s.gpr.si - 1 else s.gpr.si + 1
          di := if s.flags.df then s.gpr.di - 1 else s.gpr.di + 1 }
      ∧ s.cmps8.flags = s.flags.sub (s.memRead8 s.srcSeg s.gpr.si).1
        ((s.memRead8 s.srcSeg s.gpr.si).2.memRead8 s.seg.es s.gpr.di).1 false
      ∧ sameRest s s.cmps8 := by
  have hread := (Quiet.memRead8 s s.srcSeg s.gpr.si).trans (Quiet.memRead8 _ s.seg.es s.gpr.di)
  obtain ⟨⟨hgpr, hmem⟩, hflags, hrest⟩ := hread.setFlags (s.flags.sub (s.memRead8 s.srcSeg s.gpr.si).1
    ((s.memRead8 s.srcSeg s.gpr.si).2.memRead8 s.seg.es s.gpr.di).1 false)
  exact ⟨memKept_stepDi (memKept_stepSi hmem 1) 1, stepBoth_spec hgpr hflags rfl hrest 1⟩

theorem State.cmps16_spec (s : State) :
    memKept s s.cmps16
      ∧ s.cmps16.gpr = { s.gpr with
          si := if s.flags.df then s.gpr.si - 2 else s.gpr.si + 2
          di := if s.flags.df then s.gpr.di - 2 else s.gpr.di + 2 }
      ∧ s.cmps16.flags = s.flags.sub (s.memRead16 s.srcSeg s.gpr.si).1
        ((s.memRead16 s.srcSeg s.gpr.si).2.memRead16 s.seg.es s.gpr.di).1 false
      ∧ sameRest s s.cmps16 := by
  have hread := (Quiet.memRead16 s s.srcSeg s.gpr.si).trans (Quiet.memRead16 _ s.seg.es s.gpr.di)
  obtain ⟨⟨hgpr, hmem⟩, hflags, hrest⟩ := hread.setFlags (s.flags.sub (s.memRead16 s.srcSeg s.gpr.si).1
    ((s.memRead16 s.srcSeg s.gpr.si).2.memRead16 s.seg.es s.gpr.di).1 false)
  exact ⟨memKept_stepDi (memKept_stepSi hmem 2) 2, stepBoth_spec hgpr hflags rfl hrest 2⟩

theorem State.scas8_spec (s : State) :
    memKept s s.scas8
      ∧ s.scas8.gpr = { s.gpr with di := if s.flags.df then s.gpr.di - 1 else s.gpr.di + 1 }
      ∧ s.scas8.flags = s.flags.sub (s.reg8 .al) (s.memRead8 s.seg.es s.gpr.di).1 false ∧ sameRest s s.scas8 := by
  obtain ⟨⟨hgpr, hmem⟩, hflags, hrest⟩ := (Quiet.memRead8 s s.seg.es s.gpr.di).setFlags
    (s.flags.sub (s.reg8 .al) (s.memRead8 s.seg.es s.gpr.di).1 false)
  exact ⟨memKept_stepDi hmem 1, stepDi_spec hgpr hflags rfl hrest 1⟩

theorem State.scas16_spec (s : State) :
    memKept s s.scas16
      ∧ s.scas16.gpr = { s.gpr with di := if s.flags.df then s.gpr.di - 2 else s.gpr.di + 2 }
      ∧ s.scas16.flags = s.flags.sub s.gpr.ax (s.memRead16 s.seg.es s.gpr.di).1 false ∧ sameRest s s.scas16 := by
  obtain ⟨⟨hgpr, hmem⟩, hflags, hrest⟩ := (Quiet.memRead16 s s.seg.es s.gpr.di).setFlags
    (s.flags.sub s.gpr.ax (s.memRead16 s.seg.es s.gpr.di).1 false)
  exact ⟨memKept_stepDi hmem 2, stepDi_spec hgpr hflags rfl hrest 2⟩

/-! ### INS and OUTS -/

theorem State.ins8_spec (s : State) :
    storedByte s s.ins8 s.seg.es s.gpr.di (s.ioRead8 s.gpr.dx).1
      ∧ s.ins8.gpr = { s.gpr with di := if s.flags.df then s.gpr.di - 1 else s.gpr.di + 1 }
      ∧ s.ins8.flags = s.flags ∧ sameRest s s.ins8 := by
  obtain ⟨hstored, hgpr, hflags, hrest⟩ := (Quiet.ioRead8 s s.gpr.dx).stores8 s.seg.es s.gpr.di
    (s.ioRead8 s.gpr.dx).1
  exact ⟨storedByte_stepDi hstored 1, stepDi_spec hgpr hflags rfl hrest 1⟩

theorem State.ins16_spec (s : State) :
    storedWord s s.ins16 s.seg.es s.gpr.di (s.ioRead16 s.gpr.dx).1
      ∧ s.ins16.gpr = { s.gpr with di := if s.flags.df then s.gpr.di - 2 else s.gpr.di + 2 }
      ∧ s.ins16.flags = s.flags ∧ sameRest s s.ins16 := by
  obtain ⟨hstored, hgpr, hflags, hrest⟩ := (Quiet.ioRead16 s s.gpr.dx).stores16 s.seg.es s.gpr.di
    (s.ioRead16 s.gpr.dx).1
  exact ⟨storedWord_stepDi hstored 2, stepDi_spec hgpr hflags rfl hrest 2⟩

theorem State.outs8_spec (s : State) :
    memKept s s.outs8
      ∧ s.outs8.gpr = { s.gpr with si := if s.flags.df then s.gpr.si - 1 else s.gpr.si + 1 }
      ∧ s.outs8.flags = s.flags ∧ sameRest s s.outs8 := by
  have hwrite : Quiet s ((s.memRead8 s.srcSeg s.gpr.si).2.ioWrite8 s.gpr.dx (s.memRead8 s.srcSeg s.gpr.si).1) :=
    (Quiet.memRead8 s s.srcSeg s.gpr.si).trans (Quiet.logEvent _ _)
  obtain ⟨⟨hgpr, -, -, hflags, -⟩, -⟩ := id hwrite
  exact ⟨memKept_stepSi hwrite.regsOnly.memKept 1, stepSi_spec hgpr hflags rfl hwrite.sameRest 1⟩

theorem State.outs16_spec (s : State) :
    memKept s s.outs16
      ∧ s.outs16.gpr = { s.gpr with si := if s.flags.df then s.gpr.si - 2 else s.gpr.si + 2 }
      ∧ s.outs16.flags = s.flags ∧ sameRest s s.outs16 := by
  have hwrite : Quiet s ((s.memRead16 s.srcSeg s.gpr.si).2.ioWrite16 s.gpr.dx (s.memRead16 s.srcSeg s.gpr.si).1) :=
    (Quiet.memRead16 s s.srcSeg s.gpr.si).trans (Quiet.logEvent _ _)
  obtain ⟨⟨hgpr, -, -, hflags, -⟩, -⟩ := id hwrite
  exact ⟨memKept_stepSi hwrite.regsOnly.memKept 2, stepSi_spec hgpr hflags rfl hwrite.sameRest 2⟩

/-! ### Without a repetition -/

theorem State.repeated_none {s : State} (h : s.latches.rep = none) (compares : Bool) (primitive : State → State) :
    s.repeated compares primitive = primitive s := by
  simp only [State.repeated, h]

theorem exec_of_stringPrimitive {i : Instr} {compares : Bool} {primitive : State → State}
    (h : stringPrimitive i = some (compares, primitive)) (s : State) :
    exec i s = .next (s.repeated compares primitive) := by
  cases i <;> cases h <;> rfl

/-- Not repeated, a string instruction is its primitive (43_string.md R241). -/
theorem exec_of_unrepeated {i : Instr} {compares : Bool} {primitive : State → State}
    (h : stringPrimitive i = some (compares, primitive)) {s : State} (hrep : s.latches.rep = none) :
    exec i s = .next (primitive s) := by
  rw [exec_of_stringPrimitive h, State.repeated_none hrep]

/-- Settles O43: each instruction is its primitive, whose effect the `_spec` lemmas say. -/
theorem stringMoves : Obligations.StringMoves := by
  intro s hrep
  obtain ⟨⟨hal, hah, hsi, hkept⟩, hmem, hflags, hrest⟩ := s.lods8_spec
  exact ⟨⟨_, exec_of_unrepeated rfl hrep, s.movs8_spec⟩, ⟨_, exec_of_unrepeated rfl hrep, s.movs16_spec⟩,
    ⟨_, exec_of_unrepeated rfl hrep, hmem, hal, hah, hsi, hkept, hflags, hrest⟩,
    ⟨_, exec_of_unrepeated rfl hrep, s.lods16_spec⟩, ⟨_, exec_of_unrepeated rfl hrep, s.stos8_spec⟩,
    ⟨_, exec_of_unrepeated rfl hrep, s.stos16_spec⟩⟩

/-- Settles O44: in plain memory both elements are read from the state before. -/
theorem stringCompares : Obligations.StringCompares := by
  intro s hrep hdev
  refine ⟨⟨_, exec_of_unrepeated rfl hrep, ?_⟩, ⟨_, exec_of_unrepeated rfl hrep, ?_⟩,
    ⟨_, exec_of_unrepeated rfl hrep, ?_⟩, ⟨_, exec_of_unrepeated rfl hrep, ?_⟩⟩
  · obtain ⟨hmem, hgpr, hflags, hrest⟩ := s.cmps8_spec
    rw [show (s.memRead8 s.srcSeg s.gpr.si).2 = s by rw [State.memRead8_of_plain hdev]] at hflags
    exact ⟨hflags ▸ subFlags_sub (by simp) s.flags _ _ false, hgpr, hmem, hrest⟩
  · obtain ⟨hmem, hgpr, hflags, hrest⟩ := s.cmps16_spec
    rw [show (s.memRead16 s.srcSeg s.gpr.si).2 = s by rw [State.memRead16_of_plain hdev]] at hflags
    exact ⟨hflags ▸ subFlags_sub (by simp) s.flags _ _ false, hgpr, hmem, hrest⟩
  · obtain ⟨hmem, hgpr, hflags, hrest⟩ := s.scas8_spec
    exact ⟨hflags ▸ subFlags_sub (by simp) s.flags _ _ false, hgpr, hmem, hrest⟩
  · obtain ⟨hmem, hgpr, hflags, hrest⟩ := s.scas16_spec
    exact ⟨hflags ▸ subFlags_sub (by simp) s.flags _ _ false, hgpr, hmem, hrest⟩

/-! ### With a repetition -/

theorem countKept_of_spec {P Q : Prop} {g : Gpr} (h : P ∧ t.gpr = g ∧ Q ∧ sameRest s t)
    (hcx : g.cx = s.gpr.cx) : t.gpr.cx = s.gpr.cx ∧ sameRest s t := by
  obtain ⟨-, hgpr, -, hrest⟩ := h
  exact ⟨hgpr ▸ hcx, hrest⟩

/-- A string primitive leaves the count and what a repetition looks at beside the flags as they were. -/
theorem stringPrimitive_keeps {i : Instr} {compares : Bool} {primitive : State → State}
    (h : stringPrimitive i = some (compares, primitive)) (s : State) :
    (primitive s).gpr.cx = s.gpr.cx ∧ sameRest s (primitive s) := by
  cases i <;> cases h
  case insb => exact countKept_of_spec s.ins8_spec rfl
  case insw => exact countKept_of_spec s.ins16_spec rfl
  case outsb => exact countKept_of_spec s.outs8_spec rfl
  case outsw => exact countKept_of_spec s.outs16_spec rfl
  case movsb => exact countKept_of_spec s.movs8_spec rfl
  case movsw => exact countKept_of_spec s.movs16_spec rfl
  case cmpsb => exact countKept_of_spec s.cmps8_spec rfl
  case cmpsw => exact countKept_of_spec s.cmps16_spec rfl
  case stosb => exact countKept_of_spec s.stos8_spec rfl
  case stosw => exact countKept_of_spec s.stos16_spec rfl
  case lodsw => exact countKept_of_spec s.lods16_spec rfl
  case scasb => exact countKept_of_spec s.scas8_spec rfl
  case scasw => exact countKept_of_spec s.scas16_spec rfl
  case lodsb =>
    obtain ⟨⟨-, -, -, hkept⟩, -, -, hrest⟩ := s.lods8_spec
    exact ⟨hkept .cx (by decide), hrest⟩

theorem State.repeated_zero {s : State} {k : Rep} (hrep : s.latches.rep = some k) (hcx : s.gpr.cx = 0)
    (compares : Bool) (primitive : State → State) : s.repeated compares primitive = s := by
  simp only [State.repeated, hrep, if_pos hcx]

/-- `repeatEnds` in the words of R241. -/
theorem State.repeatEnds_iff (t : State) (k : Rep) (compares : Bool) :
    t.repeatEnds k compares = true ↔ (compares = true ∧ t.flags.zf ≠ decide (k = .repe)) ∨ t.gpr.cx = 0 := by
  cases k <;> simp [State.repeatEnds, Rep.continueZf]

theorem Word.sub_one_eq_zero (n : Word) : n - 1 = 0 ↔ n = 1 := by
  constructor <;> intro h <;> bv_omega

/-- One iteration of a repeated primitive that keeps CX, IP and the latches. -/
theorem State.repeated_iteration {s : State} {k : Rep} (hrep : s.latches.rep = some k) (hcx : s.gpr.cx ≠ 0)
    (compares : Bool) {primitive : State → State} (hkept : (primitive s).gpr.cx = s.gpr.cx)
    (hrest : sameRest s (primitive s)) :
    s.repeated compares primitive = { primitive s with
        gpr := { (primitive s).gpr with cx := s.gpr.cx - 1 }
        ip := if (compares = true ∧ (primitive s).flags.zf ≠ decide (k = .repe)) ∨ s.gpr.cx = 1 then s.ip
          else s.latches.start } := by
  obtain ⟨-, hip, -, -, hlatches, -⟩ := hrest
  have hends := State.repeatEnds_iff ((primitive s).setReg16 .cx (s.gpr.cx - 1)) k compares
  rw [State.setReg16_flags, State.setReg16_gpr, Gpr.set, Word.sub_one_eq_zero] at hends
  simp only [State.repeated, hrep, if_neg hcx, hkept, State.setReg16_latches, hlatches]
  by_cases h : (compares = true ∧ (primitive s).flags.zf ≠ decide (k = .repe)) ∨ s.gpr.cx = 1
  · rw [if_pos (hends.2 h), if_pos h, ← hip, ← hlatches]
    rfl
  · rw [if_neg (fun e => h (hends.1 e)), if_neg h, ← hlatches]
    rfl

/-- Settles O45: each of the fourteen primitives keeps CX, IP and the latches, which the repetition then looks at. -/
theorem repeatedStringStep : Obligations.RepeatedStringStep := by
  intro i compares primitive s h
  obtain ⟨hkept, hrest⟩ := stringPrimitive_keeps h s
  refine ⟨exec_of_unrepeated h, fun k hrep => ⟨fun hcx => ?_, fun hcx => ⟨_, _, rfl, ?_, rfl⟩⟩⟩
  · rw [exec_of_stringPrimitive h, State.repeated_zero hrep hcx]
  · rw [exec_of_stringPrimitive h, State.repeated_iteration hrep hcx compares hkept hrest]

/-! ### Ports -/

theorem State.nextAnswer_eq_of_cons {s : State} {a : Word} {rest : List Word} (h : s.env.answers = a :: rest) :
    s.nextAnswer = (a, s.setEnv { s.env with answers := rest }) := by
  simp only [State.nextAnswer, h]

/-- The answer listed next is the one given, and the others stay listed. -/
theorem State.nextAnswer_of_cons {s : State} {a : Word} {rest : List Word} (h : s.env.answers = a :: rest) :
    s.nextAnswer.1 = a ∧ s.nextAnswer.2.env.answers = rest := by
  rw [State.nextAnswer_eq_of_cons h]
  exact ⟨rfl, rfl⟩

theorem State.nextAnswer_events (s : State) : s.nextAnswer.2.env.events = s.env.events := by
  rw [State.nextAnswer]
  split <;> rfl

theorem State.ioRead8_events (s : State) (port : Word) :
    (s.ioRead8 port).2.env.events = .inByte port (s.ioRead8 port).1 :: s.env.events := by
  rw [State.ioRead8, State.logEvent_env, State.nextAnswer_events]

theorem State.ioRead16_events (s : State) (port : Word) :
    (s.ioRead16 port).2.env.events = .inWord port (s.ioRead16 port).1 :: s.env.events := by
  rw [State.ioRead16, State.logEvent_env, State.nextAnswer_events]

theorem State.writeByte_env {s : State} (h : s.devices = []) (a : Nat) (b : Byte) : (s.writeByte a b).env = s.env := by
  simp [State.writeByte, h]

theorem State.memWrite8_env {s : State} (h : s.devices = []) (seg off : Word) (v : Byte) :
    (s.memWrite8 seg off v).env = s.env := State.writeByte_env h _ _

theorem State.memWrite16_env {s : State} (h : s.devices = []) (seg off v : Word) :
    (s.memWrite16 seg off v).env = s.env := by
  rw [State.memWrite16, State.writeByte_env ((State.writeByte_devices s _ _).trans h), State.writeByte_env h]

theorem State.ins8_env {s : State} (h : s.devices = []) : s.ins8.env = (s.ioRead8 s.gpr.dx).2.env :=
  State.memWrite8_env ((s.ioRead8_devices _).trans h) _ _ _

theorem State.ins16_env {s : State} (h : s.devices = []) : s.ins16.env = (s.ioRead16 s.gpr.dx).2.env :=
  State.memWrite16_env ((s.ioRead16_devices _).trans h) _ _ _

theorem execInAcc_spec (s : State) (f : PortForm) :
    ∃ t v, exec (.inAcc f) s = .next t
      ∧ (∀ a rest, s.env.answers = a :: rest → v = a ∧ t.env.answers = rest)
      ∧ (portIsWord f = false → wrote8 s t (.reg .al) (loByte v)
          ∧ t.env.events = .inByte (s.port f) (loByte v) :: s.env.events)
      ∧ (portIsWord f = true → wrote16 s t (.reg .ax) v ∧ t.env.events = .inWord (s.port f) v :: s.env.events)
      ∧ t.flags = s.flags ∧ sameRest s t := by
  have hread8 := Quiet.ioRead8 s (s.port f)
  have hread16 := Quiet.ioRead16 s (s.port f)
  by_cases hf : portIsWord f = true
  · obtain ⟨hwrote, hflags, hrest⟩ := hread16.moved16 (.reg .ax) s.nextAnswer.1
    refine ⟨_, s.nextAnswer.1, congrArg Host.Outcome.next (if_pos hf), fun a rest h => State.nextAnswer_of_cons h,
      fun e => absurd (e.symm.trans hf) (by decide), fun _ => ⟨hwrote, s.ioRead16_events _⟩, hflags, hrest⟩
  · obtain ⟨hwrote, hflags, hrest⟩ := hread8.moved8 (.reg .al) (loByte s.nextAnswer.1)
    refine ⟨_, s.nextAnswer.1, congrArg Host.Outcome.next (if_neg hf), fun a rest h => State.nextAnswer_of_cons h,
      fun _ => ⟨hwrote, s.ioRead8_events _⟩, fun e => absurd e hf, hflags, hrest⟩

theorem execOutAcc_spec (s : State) (f : PortForm) :
    ∃ t, exec (.outAcc f) s = .next t
      ∧ t.env.events =
          (if portIsWord f then Event.outWord (s.port f) s.gpr.ax else .outByte (s.port f) (s.reg8 .al)) :: s.env.events
      ∧ wroteNothing s t ∧ t.flags = s.flags ∧ sameRest s t := by
  by_cases hf : portIsWord f = true
  · refine ⟨s.ioWrite16 (s.port f) (s.reg16 .ax), congrArg Host.Outcome.next (if_pos hf), ?_,
      (Quiet.logEvent s _).wroteNothing, rfl, (Quiet.logEvent s _).sameRest⟩
    rw [if_pos hf]
    rfl
  · refine ⟨s.ioWrite8 (s.port f) (s.reg8 .al), congrArg Host.Outcome.next (if_neg hf), ?_,
      (Quiet.logEvent s _).wroteNothing, rfl, (Quiet.logEvent s _).sameRest⟩
    rw [if_neg hf]
    rfl

/-- Settles O27: INS and OUTS are a port access and a memory access, of which only the first is seen in plain memory. -/
theorem portTransfers : Obligations.PortTransfers := by
  intro s
  refine ⟨execInAcc_spec s, execOutAcc_spec s, fun hrep hdev => ⟨
    ⟨_, (s.ioRead8 s.gpr.dx).1, exec_of_unrepeated rfl hrep, ?_, ?_, s.ins8_spec⟩,
    ⟨_, (s.ioRead16 s.gpr.dx).1, exec_of_unrepeated rfl hrep, ?_, ?_, s.ins16_spec⟩,
    ⟨_, exec_of_unrepeated rfl hrep, ?_, s.outs8_spec⟩, ⟨_, exec_of_unrepeated rfl hrep, ?_, s.outs16_spec⟩⟩⟩
  · intro a rest h
    rw [State.ins8_env hdev]
    exact (State.nextAnswer_of_cons h).imp_left (congrArg loByte)
  · rw [State.ins8_env hdev, State.ioRead8_events]
  · intro a rest h
    rw [State.ins16_env hdev]
    exact State.nextAnswer_of_cons h
  · rw [State.ins16_env hdev, State.ioRead16_events]
  · have hread : (s.memRead8 s.srcSeg s.gpr.si).2 = s := by rw [State.memRead8_of_plain hdev]
    rw [State.outs8, hread]
    rfl
  · have hread : (s.memRead16 s.srcSeg s.gpr.si).2 = s := by rw [State.memRead16_of_plain hdev]
    rw [State.outs16, hread]
    rfl

end Sys2Proof.Machine
end

section
/-! PROOF. The stack in pairs: CALL and RET, PUSHA and POPA, ENTER and LEAVE: O25, O46, O47, O53. -/

namespace Sys2Proof.Machine

/-! ### CALL -/

/-- A near CALL, whose target may have been read from memory or a device before the push. -/
theorem Quiet.callNear_spec {s r : State} (h : Quiet s r) (v target : Word) :
    pushed s ((r.push16 v).jumpTo target) v ∧ ((r.push16 v).jumpTo target).ip = target
      ∧ ((r.push16 v).jumpTo target).seg = s.seg ∧ ((r.push16 v).jumpTo target).flags = s.flags
      ∧ ((r.push16 v).jumpTo target).inhibit = s.inhibit ∧ Machine.sameControl s ((r.push16 v).jumpTo target) := by
  obtain ⟨hpushed, hflags, hseg, -, hinhibit, hcontrol⟩ := h.pushes v
  exact ⟨hpushed, rfl, hseg, hflags, hinhibit, hcontrol⟩

/-- A far CALL, whose target may have been read from memory or a device before the two pushes. -/
theorem Quiet.callFar_spec {s r : State} (h : Quiet s r) (cs v seg off : Word) :
    ∃ u t, t = ((r.push16 cs).push16 v).farJumpTo seg off
      ∧ pushed s u cs ∧ u.seg = s.seg ∧ u.devices = s.devices ∧ pushed u t v
      ∧ t.ip = off ∧ t.seg = { s.seg with cs := seg } ∧ t.flags = s.flags ∧ t.inhibit = s.inhibit
      ∧ Machine.sameControl s t := by
  obtain ⟨hpushed, hflags, hrest⟩ := h.pushes cs
  obtain ⟨hpushed', hflags', hrest'⟩ := (Quiet.refl (r.push16 cs)).pushes v
  obtain ⟨hseg, -, -, -, -, hdevices, -⟩ := id hrest
  obtain ⟨hseg', -, hinhibit, hcontrol⟩ := sameRest_trans hrest hrest'
  exact ⟨_, _, rfl, hpushed, hseg, hdevices, hpushed', rfl, hseg' ▸ rfl, hflags'.trans hflags, hinhibit, hcontrol⟩

/-- Settles O46. -/
theorem calls : Obligations.Calls := by
  intro s
  refine ⟨fun rel => ⟨_, rfl, (Quiet.refl s).callNear_spec s.ip (s.ip + rel)⟩,
    fun e => ⟨_, rfl, (Quiet.read16 s (s.loc e)).callNear_spec s.ip _⟩, fun off seg => ?_, fun m => ?_⟩
  · obtain ⟨u, t, rfl, hspec⟩ := (Quiet.refl s).callFar_spec s.seg.cs s.ip seg off
    exact ⟨u, _, rfl, hspec⟩
  · obtain ⟨u, t, rfl, hspec⟩ := (Quiet.readPointer s m).callFar_spec s.seg.cs s.ip (s.readPointer m).1.2
      (s.readPointer m).1.1
    exact ⟨u, _, rfl, hspec⟩

/-! ### RET -/

theorem exec_retNear_plain {s : State} (h : s.devices = []) (n : Option Word) :
    exec (.retNear n) s = .next ((s.setGpr { s.gpr with sp := s.gpr.sp + 2 + n.getD 0 }).jumpTo
      (s.plainWord s.seg.ss s.gpr.sp)) := by
  show execRetNear n s = _
  rw [execRetNear, State.pop16_plain h]
  rfl

theorem exec_retFar_plain {s : State} (h : s.devices = []) (n : Option Word) :
    exec (.retFar n) s = .next ((s.setGpr { s.gpr with sp := s.gpr.sp + 4 + n.getD 0 }).farJumpTo
      (s.plainWord s.seg.ss (s.gpr.sp + 2)) (s.plainWord s.seg.ss s.gpr.sp)) := by
  have hsp : s.gpr.sp + 4 = s.gpr.sp + 2 + 2 := by bv_omega
  show execRetFar n s = _
  simp only [execRetFar, State.pop16_plain h]
  rw [State.pop16_plain (s := s.setReg16 .sp (s.gpr.sp + 2)) h, hsp]
  rfl

/-- The near return from a state whose last push was the return offset. -/
theorem exec_retNear_of_pushed {s t : State} (h : s.devices = []) (hpushed : pushed s t s.ip) (hseg : t.seg = s.seg)
    (hflags : t.flags = s.flags) (hdevices : t.devices = s.devices) :
    ∃ u, exec (.retNear none) t = .next u ∧ u.ip = s.ip ∧ u.gpr = s.gpr ∧ u.seg = s.seg ∧ u.flags = s.flags := by
  obtain ⟨hgpr, hword⟩ := hpushed
  have hsp : t.gpr.sp = s.gpr.sp - 2 := by rw [hgpr]
  refine ⟨_, exec_retNear_plain (hdevices.trans h) none, ?_, ?_, hseg, hflags⟩
  · rw [State.jumpTo_ip, hseg, hsp]
    exact storedWord_plainWord h hword
  · have hback : s.gpr.sp - 2 + 2 + 0 = s.gpr.sp := by bv_omega
    show ({ t.gpr with sp := t.gpr.sp + 2 + 0 } : Gpr) = s.gpr
    rw [hgpr, hback]

/-- The far return from a state whose last two pushes were CS and the return offset. -/
theorem exec_retFar_of_pushed {s u t : State} (h : s.devices = []) (hcs : pushed s u s.seg.cs) (hu : u.seg = s.seg)
    (hud : u.devices = s.devices) (hip : pushed u t s.ip) {c : Word} (hseg : t.seg = { s.seg with cs := c })
    (hflags : t.flags = s.flags) (hdevices : t.devices = s.devices) :
    ∃ r, exec (.retFar none) t = .next r ∧ r.ip = s.ip ∧ r.gpr = s.gpr ∧ r.seg = s.seg ∧ r.flags = s.flags := by
  obtain ⟨hgpr, hwordCs⟩ := hcs
  obtain ⟨hgpr', hwordIp⟩ := hip
  rw [hu, hgpr] at hwordIp
  rw [hgpr] at hgpr'
  have hss : t.seg.ss = s.seg.ss := by rw [hseg]
  have hsp : t.gpr.sp = s.gpr.sp - 2 - 2 := by rw [hgpr']
  have hback2 : s.gpr.sp - 2 - 2 + 2 = s.gpr.sp - 2 := by bv_omega
  have hback4 : s.gpr.sp - 2 - 2 + 4 + 0 = s.gpr.sp := by bv_omega
  have hoffset : t.plainWord s.seg.ss (s.gpr.sp - 2 - 2) = s.ip := storedWord_plainWord (hud.trans h) hwordIp
  have hsegment : t.plainWord s.seg.ss (s.gpr.sp - 2) = s.seg.cs :=
    (storedWord_plainWord_other hwordIp (by constructor <;> bv_omega)).trans (storedWord_plainWord h hwordCs)
  refine ⟨_, exec_retFar_plain (hdevices.trans h) none, ?_, ?_, ?_, hflags⟩
  · rw [State.farJumpTo_ip, hss, hsp, hoffset]
  · show ({ t.gpr with sp := t.gpr.sp + 4 + 0 } : Gpr) = s.gpr
    rw [hgpr', hback4]
  · rw [State.farJumpTo_seg, hss, hsp, hback2, hsegment]
    show ({ t.seg with cs := s.seg.cs } : Segs) = s.seg
    rw [hseg]

/-- Settles O47: the returns in plain memory, then each after the pushes of its CALL. -/
theorem returns : Obligations.Returns := by
  intro s h
  obtain ⟨hnear, hind, hfar, hfarInd⟩ := calls s
  refine ⟨fun n => ⟨_, exec_retNear_plain h n, rfl, rfl, rfl, fun _ => rfl, rfl, rfl, rfl, rfl, rfl, sameLines_refl s⟩,
    fun n => ⟨_, exec_retFar_plain h n, rfl, rfl, rfl, fun _ => rfl, rfl, rfl, rfl, rfl, rfl, sameLines_refl s⟩,
    fun rel => ?_, fun e => ?_, fun off seg => ?_, fun m => ?_⟩
  · obtain ⟨t, hexec, hpushed, -, hseg, hflags, -, -, -, hdevices, -⟩ := hnear rel
    obtain ⟨u, hret⟩ := exec_retNear_of_pushed h hpushed hseg hflags hdevices
    exact ⟨t, u, hexec, hret⟩
  · obtain ⟨t, hexec, hpushed, -, hseg, hflags, -, -, -, hdevices, -⟩ := hind e
    obtain ⟨u, hret⟩ := exec_retNear_of_pushed h hpushed hseg hflags hdevices
    exact ⟨t, u, hexec, hret⟩
  · obtain ⟨u, t, hexec, hcs, hu, hud, hip, -, hseg, hflags, -, -, -, hdevices, -⟩ := hfar off seg
    obtain ⟨r, hret⟩ := exec_retFar_of_pushed h hcs hu hud hip hseg hflags hdevices
    exact ⟨t, r, hexec, hret⟩
  · obtain ⟨u, t, hexec, hcs, hu, hud, hip, -, hseg, hflags, -, -, -, hdevices, -⟩ := hfarInd m
    obtain ⟨r, hret⟩ := exec_retFar_of_pushed h hcs hu hud hip hseg hflags hdevices
    exact ⟨t, r, hexec, hret⟩

/-! ### PUSHA and POPA -/

/-- The operands of PUSHA in the order of the pushes. -/
def pushaWords (g : Gpr) : List Word := [g.ax, g.cx, g.dx, g.bx, g.sp, g.bp, g.si, g.di]

theorem exec_pusha_eq (s : State) : exec .pusha s = .next ((pushaWords s.gpr).foldl State.push16 s) := by
  show execPusha s = _
  simp only [execPusha, pushaWords, List.foldl_cons, List.foldl_nil]

theorem State.popInto_plain {s : State} (h : s.devices = []) (r : Reg16) :
    s.popInto r = s.setGpr ((s.gpr.set .sp (s.gpr.sp + 2)).set r (s.plainWord s.seg.ss s.gpr.sp)) := by
  rw [State.popInto, State.pop16_plain h]
  rfl

/-- What POPA leaves in the general registers. -/
def State.poppedGpr (s : State) : Gpr :=
  { di := s.plainWord s.seg.ss s.gpr.sp, si := s.plainWord s.seg.ss (s.gpr.sp + 2),
    bp := s.plainWord s.seg.ss (s.gpr.sp + 4), sp := s.gpr.sp + 16,
    bx := s.plainWord s.seg.ss (s.gpr.sp + 8), dx := s.plainWord s.seg.ss (s.gpr.sp + 10),
    cx := s.plainWord s.seg.ss (s.gpr.sp + 12), ax := s.plainWord s.seg.ss (s.gpr.sp + 14) }

theorem exec_popa_plain {s : State} (h : s.devices = []) : exec .popa s = .next (s.setGpr s.poppedGpr) := by
  show execPopa s = _
  simp only [execPopa, State.popInto_plain, State.setReg16, State.setGpr_devices, h, State.setGpr_gpr, State.setGpr_seg,
    State.plainWord_setGpr, Gpr.set, BitVec.add_assoc, BitVec.reduceAdd]
  rfl

theorem Word.sub_add_eq_sub {n m k : Word} (h : m + k = n) (p : Word) : p - n + m = p - k := by
  subst h
  bv_omega

/-- POPA finds the words of PUSHA again. -/
theorem State.poppedGpr_of_pushed {g : Gpr} {t : State} {ss : Word} (hseg : t.seg.ss = ss) (hsp : t.gpr.sp = g.sp - 16)
    (hax : t.plainWord ss (g.sp - 2) = g.ax) (hcx : t.plainWord ss (g.sp - 4) = g.cx)
    (hdx : t.plainWord ss (g.sp - 6) = g.dx) (hbx : t.plainWord ss (g.sp - 8) = g.bx)
    (hbp : t.plainWord ss (g.sp - 12) = g.bp) (hsi : t.plainWord ss (g.sp - 14) = g.si)
    (hdi : t.plainWord ss (g.sp - 16) = g.di) : t.poppedGpr = g := by
  rw [State.poppedGpr, hseg, hsp, Word.sub_add_eq_sub (show (2 : Word) + 14 = 16 by decide),
    Word.sub_add_eq_sub (show (4 : Word) + 12 = 16 by decide), Word.sub_add_eq_sub (show (8 : Word) + 8 = 16 by decide),
    Word.sub_add_eq_sub (show (10 : Word) + 6 = 16 by decide),
    Word.sub_add_eq_sub (show (12 : Word) + 4 = 16 by decide),
    Word.sub_add_eq_sub (show (14 : Word) + 2 = 16 by decide), BitVec.sub_add_cancel, hax, hcx, hdx, hbx, hbp, hsi, hdi]

/-- Settles O25: PUSHA is eight pushes (`State.foldl_push16`), whose words POPA finds again. -/
theorem pushaAndPopa : Obligations.PushaAndPopa := by
  intro s h
  refine ⟨?_, _, exec_popa_plain h, rfl, fun _ => rfl, rfl, rfl, rfl, rfl, rfl, rfl, rfl, sameLines_refl s⟩
  obtain ⟨hgpr, hrest, hflags, hmem, hwords⟩ := State.foldl_push16 (pushaWords s.gpr) s h (show 8 < 32767 by decide)
  obtain ⟨hseg, -, -, -, -, hdevices, -⟩ := id hrest
  have hax := hwords 0 (show 0 < 8 by decide)
  have hcx := hwords 1 (show 1 < 8 by decide)
  have hdx := hwords 2 (show 2 < 8 by decide)
  have hbx := hwords 3 (show 3 < 8 by decide)
  have hsp := hwords 4 (show 4 < 8 by decide)
  have hbp := hwords 5 (show 5 < 8 by decide)
  have hsi := hwords 6 (show 6 < 8 by decide)
  have hdi := hwords 7 (show 7 < 8 by decide)
  refine ⟨_, exec_pusha_eq s, hgpr, hax, hcx, hdx, hbx, hsp, hbp, hsi, hdi, fun x hx => hmem x fun k hk => ?_, hflags,
    hrest, _, exec_popa_plain (hdevices.trans h), ?_⟩
  · have hlt : k < 8 := hk
    refine hx (2 * (k + 1)) ?_
    interval_cases k <;> decide
  · have hss := congrArg Segs.ss hseg
    have hspNow := congrArg Gpr.sp hgpr
    exact State.poppedGpr_of_pushed hss hspNow hax hcx hdx hbx hbp hsi hdi

/-! ### ENTER and LEAVE -/

theorem Word.sub_two_mul_sub (p : Word) (k : Nat) :
    p - BitVec.ofNat 16 (2 * k) - 2 = p - BitVec.ofNat 16 (2 * (k + 1)) := by
  bv_omega

/-- The pushes of ENTER for a level above 0: the words of the caller's display, then the frame pointer. -/
theorem State.enterDisplay_spec (s : State) (h : s.devices = []) (fp : Word) (n : Nat) (hn : n < 32000) :
    (∃ b, (s.enterDisplay fp n).gpr = { s.gpr with bp := b, sp := s.gpr.sp - BitVec.ofNat 16 (2 * n) })
      ∧ sameRest s (s.enterDisplay fp n) ∧ (s.enterDisplay fp n).flags = s.flags
      ∧ (∀ x, (∀ k, 1 ≤ k → k ≤ n → x ∉ wordBytes s.seg.ss (s.gpr.sp - BitVec.ofNat 16 (2 * k))) →
          Memory.read (s.enterDisplay fp n).mem x = Memory.read s.mem x)
      ∧ (n ≠ 0 → (s.enterDisplay fp n).plainWord s.seg.ss (s.gpr.sp - BitVec.ofNat 16 (2 * n)) = fp)
      ∧ ((∀ j k, 1 ≤ j → j < n → 1 ≤ k → k < n → ∀ x ∈ wordBytes s.seg.ss (s.gpr.bp - BitVec.ofNat 16 (2 * j)),
            x ∉ wordBytes s.seg.ss (s.gpr.sp - BitVec.ofNat 16 (2 * k))) →
          ∀ j, 1 ≤ j → j < n →
            (s.enterDisplay fp n).plainWord s.seg.ss (s.gpr.sp - BitVec.ofNat 16 (2 * j))
              = s.plainWord s.seg.ss (s.gpr.bp - BitVec.ofNat 16 (2 * j))) := by
  cases n with
  | zero => exact ⟨⟨s.gpr.bp, by simp [State.enterDisplay]⟩, sameRest_refl s, rfl, fun _ _ => rfl,
      fun hne => absurd rfl hne, fun _ j _ hj => by omega⟩
  | succ n =>
    obtain ⟨hgpr, hrest, hflags, hmem, hwords⟩ := State.copyFrames_spec n s h (by omega)
    obtain ⟨hseg, -, -, -, -, hdevices, -⟩ := id hrest
    have hss : (s.copyFrames n).seg.ss = s.seg.ss := by rw [hseg]
    have hsp : (s.copyFrames n).gpr.sp = s.gpr.sp - BitVec.ofNat 16 (2 * n) := by rw [hgpr]
    obtain ⟨hgpr', hword⟩ := pushed_push16 (s.copyFrames n) fp
    rw [hss, hsp, Word.sub_two_mul_sub] at hword
    rw [hsp, Word.sub_two_mul_sub, hgpr] at hgpr'
    refine ⟨⟨_, hgpr'⟩, sameRest_trans hrest (sameRest_push16 _ fp), (State.push16_flags _ fp).trans hflags,
      fun x hx => ?_, fun _ => storedWord_plainWord (hdevices.trans h) hword, fun hd j hj hjn => ?_⟩
    · exact (storedWord_read hword (hx (n + 1) (by omega) (by omega))).trans
        (hmem x fun k hk => hx (k + 1) (by omega) (by omega))
    · have hcopied := hwords (fun j k hjn hkn => hd (j + 1) (k + 1) (by omega) (by omega) (by omega) (by omega)) (j - 1)
        (by omega)
      rw [show j - 1 + 1 = j by omega] at hcopied
      exact (storedWord_plainWord_other hword (by constructor <;> bv_omega)).trans hcopied

theorem exec_leave_plain {s : State} (h : s.devices = []) : exec .leave s = .next
    (s.setGpr { s.gpr with sp := s.gpr.bp + 2, bp := s.plainWord s.seg.ss s.gpr.bp }) := by
  show execLeave s = _
  rw [execLeave, State.pop16_plain (s := s.setReg16 .sp s.gpr.bp) h]
  rfl

/-- The state that ENTER leaves. -/
def State.entered (s : State) (locals : Word) (l : Nat) : State :=
  let t := (s.push16 s.gpr.bp).enterDisplay (s.gpr.sp - 2) l
  t.setGpr { t.gpr with bp := s.gpr.sp - 2, sp := t.gpr.sp - locals }

theorem exec_enter_eq (locals : Word) (level : Byte) (s : State) :
    exec (.enter locals level) s = .next (s.entered locals (enterLevel level)) := by
  show execEnter locals level s = _
  simp only [execEnter, State.push16_gpr, State.setReg16_gpr]
  rfl

theorem enterLevel_of_lt {level : Byte} (h : level.toNat < 32) : enterLevel level = level.toNat := if_pos h

theorem enterLevel_lt (level : Byte) : enterLevel level < 256 := by
  have := level.isLt
  unfold enterLevel
  split
  · omega
  · cases Config.enterLevelMask <;> simp only <;> omega

/-- ENTER's frame, from the pushes of its display and the push of BP before them. -/
theorem State.entered_spec {s : State} (h : s.devices = []) (locals : Word) {l : Nat} (hl : l < 256) :
    (s.entered locals l).gpr
        = { s.gpr with bp := s.gpr.sp - 2, sp := s.gpr.sp - 2 - BitVec.ofNat 16 (2 * l) - locals }
      ∧ (s.entered locals l).plainWord s.seg.ss (s.gpr.sp - 2) = s.gpr.bp
      ∧ (l ≠ 0 → (s.entered locals l).plainWord s.seg.ss (s.gpr.sp - 2 - BitVec.ofNat 16 (2 * l)) = s.gpr.sp - 2)
      ∧ ((∀ j k, 1 ≤ j → j < l → k ≤ l → ∀ x ∈ wordBytes s.seg.ss (s.gpr.bp - BitVec.ofNat 16 (2 * j)),
            x ∉ wordBytes s.seg.ss (s.gpr.sp - 2 - BitVec.ofNat 16 (2 * k))) →
          ∀ j, 1 ≤ j → j < l →
            (s.entered locals l).plainWord s.seg.ss (s.gpr.sp - 2 - BitVec.ofNat 16 (2 * j))
              = s.plainWord s.seg.ss (s.gpr.bp - BitVec.ofNat 16 (2 * j)))
      ∧ (∀ x, (∀ k, k ≤ l → x ∉ wordBytes s.seg.ss (s.gpr.sp - 2 - BitVec.ofNat 16 (2 * k))) →
          Memory.read (s.entered locals l).mem x = Memory.read s.mem x)
      ∧ (s.entered locals l).flags = s.flags ∧ sameRest s (s.entered locals l) := by
  have hpush := State.push16_plainWord h s.gpr.bp
  have hread : ∀ x, x ∉ wordBytes s.seg.ss (s.gpr.sp - 2 - BitVec.ofNat 16 (2 * 0)) →
      Memory.read (s.push16 s.gpr.bp).mem x = Memory.read s.mem x := fun x hx =>
    State.push16_read s.gpr.bp (by rwa [Nat.mul_zero, BitVec.sub_zero] at hx)
  obtain ⟨⟨b, hgpr⟩, hrest, hflags, hmem, hframe, hdisplay⟩ :=
    (s.push16 s.gpr.bp).enterDisplay_spec ((State.push16_devices s _).trans h) (s.gpr.sp - 2) l (by omega)
  simp only [State.push16_gpr, State.push16_seg] at hgpr hmem hframe hdisplay
  refine ⟨?_, ?_, hframe, fun hd j hj hjl => ?_, fun x hx => ?_, hflags.trans (State.push16_flags s _),
    sameRest_trans (sameRest_push16 s _) hrest⟩
  · rw [State.entered, State.setGpr_gpr, hgpr]
  · refine (State.plainWord_of_read fun x hx => hmem x fun k hk hkl => ?_).trans hpush
    exact wordBytes_disjoint (by constructor <;> bv_omega) hx
  · refine (hdisplay (fun j k hj hjl _ hkl => hd j k hj hjl (by omega)) j hj hjl).trans ?_
    exact State.plainWord_of_read fun x hx => hread x (hd j 0 hj hjl (by omega) x hx)
  · exact (hmem x fun k _ hkl => hx k hkl).trans (hread x (hx 0 (by omega)))

/-- Settles O53: LEAVE finds BP's word at the frame pointer that ENTER left. -/
theorem enterAndLeave : Obligations.EnterAndLeave := by
  intro s h
  refine ⟨fun locals level l hl => ?_,
    _, exec_leave_plain h, rfl, fun _ => rfl, rfl, rfl, rfl, rfl, rfl, rfl, rfl, sameLines_refl s⟩
  obtain ⟨hgpr, hframe, hpointer, hdisplay, hmem, hflags, hrest⟩ :=
    State.entered_spec h locals (hl ▸ enterLevel_lt level : l < 256)
  obtain ⟨hseg, -, -, -, -, hdevices, -⟩ := id hrest
  refine ⟨_, hl ▸ exec_enter_eq locals level s, fun hlt => hl.trans (enterLevel_of_lt hlt), hgpr, hframe, hpointer,
    hdisplay, hmem, hflags, hrest, _, exec_leave_plain (hdevices.trans h), ?_⟩
  have hback : s.gpr.sp - 2 + 2 = s.gpr.sp := BitVec.sub_add_cancel _ _
  have hbp : (s.entered locals l).gpr.bp = s.gpr.sp - 2 := by rw [hgpr]
  rw [State.setGpr_gpr, hseg, hbp, hframe, hgpr, hback]

end Sys2Proof.Machine
end

section
/-! PROOF. The conditions after CMP (O50), and memory in bytes and words (O19). -/

namespace Sys2Proof.Machine

/-! ### What a subtraction's flags say of its operands -/

theorem differenceOf_false {w : Nat} (a b : BitVec w) : differenceOf a b false = a - b := by
  rw [← subResult_eq]
  simp [subResult]

/-- SF ≠ OF of a subtraction is the signed order: the sign of the difference, turned where it overflows. The signs are
comparisons with `2 ^ (w - 1)`, so that with the difference written out the rest is linear arithmetic. -/
theorem msb_sub_ne_overflow {w : Nat} (hw : 0 < w) (a b : BitVec w) :
    ((a - b).msb != ((a.msb != b.msb) && ((a - b).msb != a.msb))) = decide (a.toInt < b.toInt) := by
  have hpow : 2 ^ w = 2 * 2 ^ (w - 1) := by rw [← pow_succ', Nat.sub_add_cancel hw]
  have ha := a.isLt
  have hb := b.isLt
  have hdiff : (a - b).toNat = if b.toNat ≤ a.toNat then a.toNat - b.toNat else 2 ^ w - b.toNat + a.toNat := by
    split
    · exact BitVec.toNat_sub_of_le ‹_›
    · rw [BitVec.toNat_sub, Nat.mod_eq_of_lt (by omega)]
  simp only [BitVec.toInt_eq_toNat_cond, BitVec.msb_eq_decide]
  grind

/-- A strict order with equality is the order. -/
theorem decide_lt_or_eq {α β : Type} [LinearOrder β] [DecidableEq α] {f : α → β} (hf : Function.Injective f) (a b : α) :
    (decide (f a < f b) || decide (a = b)) = decide (f a ≤ f b) := by
  rw [← Bool.decide_or, decide_eq_decide, le_iff_lt_or_eq, hf.eq_iff]

theorem orderFlags_of_subFlags {w : Nat} (hw : 0 < w) {f g : Flags} {a b : BitVec w} (h : subFlags f g a b false) :
    orderFlags g a b := by
  obtain ⟨hcf, ⟨-, hofl, hzf, hsf, -⟩, -⟩ := h
  rw [differenceOf_false] at hofl hzf hsf
  have heq : g.zf = decide (a = b) := by rw [hzf, decide_eq_decide, sub_eq_zero]
  have hbelow : g.cf = decide (a.toNat < b.toNat) := hcf
  have hless : (g.sf != g.ofl) = decide (a.toInt < b.toInt) := by rw [hsf, hofl, msb_sub_ne_overflow hw]
  refine ⟨heq, hbelow, ?_, hless, ?_⟩
  · rw [hbelow, heq, decide_lt_or_eq (fun _ _ => BitVec.eq_of_toNat_eq)]
  · rw [hless, heq, decide_lt_or_eq (fun _ _ => BitVec.eq_of_toInt_eq)]

/-- Settles O50: CMP leaves the flags of the subtraction (`State.compare_compared`), which say the order. -/
theorem conditionsAfterCompare : Obligations.ConditionsAfterCompare := by
  intro f s t h
  obtain rfl : s.compare subOp f = t := by
    rw [exec_cmp_eq] at h
    exact Host.Outcome.next.inj h
  have hcompared := s.compare_compared f
  generalize aluOperands s f = o at hcompared
  cases o
  all_goals
    obtain ⟨-, hflags, -⟩ := hcompared
    exact orderFlags_of_subFlags (by decide) hflags

/-! ### Bytes and words of memory -/

theorem State.not_isDevice {s : State} {a : Nat} (h : ¬ s.inWindow a) : s.isDevice a = false := by
  rw [← Bool.not_eq_true, State.isDevice_iff_inWindow]
  exact h

theorem State.writeByte_plain {s : State} {a : Nat} (h : s.isDevice a = false) (b : Byte) :
    s.writeByte a b = { s with mem := Memory.write s.mem a b, stored := a :: s.stored } := by
  rw [State.writeByte, h, if_neg (by decide)]

theorem State.writeByte_device {s : State} {a : Nat} (h : s.isDevice a = true) (b : Byte) :
    s.writeByte a b = s.logEvent (.deviceWrite a b) := by
  rw [State.writeByte, if_pos h]

theorem State.readByte_device {s : State} {a : Nat} (h : s.isDevice a = true) :
    s.readByte a = (loByte s.nextAnswer.1, s.nextAnswer.2.logEvent (.deviceRead a (loByte s.nextAnswer.1))) := by
  rw [State.readByte, if_pos h]

/-- With no answer listed the environment gives a free value, which uses up one draw. -/
theorem State.nextAnswer_of_nil {s : State} (h : s.env.answers = []) :
    s.nextAnswer = (Config.envAnswer s.draws, { s with draws := s.draws + 1 }) := by
  simp only [State.nextAnswer, h]

/-- The address of a word's second byte, below offset FFFFH. -/
theorem byteAddr_one (seg : Word) {off : Word} (h : off ≠ 0xFFFF) : byteAddr seg off 1 = phys seg (off + 1) := by
  have hlt : off.toNat + 1 < 65536 := by bv_omega
  have hnext : (off + 1).toNat = off.toNat + 1 := by bv_omega
  rw [byteAddr, if_pos hlt, phys, hnext]

/-- Under `wrap` the byte after offset FFFFH is at offset 0. -/
theorem byteAddr_one_wrap (seg off : Word) (h : Config.segWrap = .wrap) : byteAddr seg off 1 = phys seg (off + 1) := by
  by_cases hoff : off = 0xFFFF
  · subst hoff
    rw [byteAddr, if_neg (by decide), h]
    rfl
  · exact byteAddr_one seg hoff

/-- Under `linear` it is the next physical address. -/
theorem byteAddr_one_linear (seg off : Word) (h : Config.segWrap = .linear) :
    byteAddr seg off 1 = (seg.toNat * 16 + off.toNat + 1) % 2 ^ 20 := by
  rw [byteAddr, h, Nat.add_assoc]
  split <;> rfl

/-- A byte of plain memory after a word has been stored there. -/
theorem State.memRead8_memWrite16 {s : State} (h : s.devices = []) (seg off v : Word) :
    ((s.memWrite16 seg off v).memRead8 seg off).1 = loByte v := by
  rw [State.memRead8_of_plain ((State.memWrite16_devices s seg off v).trans h), storedWord_memWrite16,
    State.isDevice_nil h, if_neg (by decide), if_neg (byteAddr_zero_ne_one seg off), if_pos rfl]

theorem State.memRead8_memWrite16_next {s : State} (h : s.devices = []) (seg : Word) {off : Word} (hoff : off ≠ 0xFFFF)
    (v : Word) : ((s.memWrite16 seg off v).memRead8 seg (off + 1)).1 = hiByte v := by
  rw [State.memRead8_of_plain ((State.memWrite16_devices s seg off v).trans h), storedWord_memWrite16,
    State.isDevice_nil h, if_neg (by decide), byteAddr_zero, ← byteAddr_one seg hoff, if_pos rfl]

theorem State.memRead16_memWrite16 {s : State} (h : s.devices = []) (seg off v : Word) :
    ((s.memWrite16 seg off v).memRead16 seg off).1 = v := by
  rw [State.memRead16_of_plain ((State.memWrite16_devices s seg off v).trans h)]
  exact storedWord_plainWord h (storedWord_memWrite16 s seg off v)

/-- Settles O19: a byte access outside the windows, one in a window, and words where all memory is plain. -/
theorem memoryWordsAreLittleEndian : Obligations.MemoryWordsAreLittleEndian := by
  intro s seg off v b a ha
  obtain rfl : byteAddr seg off 0 = a := (byteAddr_zero seg off).trans ha.symm
  refine ⟨fun hplain => ?_, fun hwindow => ?_, fun h => ?_⟩
  · have hdev := State.not_isDevice hplain
    exact ⟨State.memRead8_plain hdev, State.writeByte_plain hdev b, Memory.read_write s.mem _ b⟩
  · have hdev := (s.isDevice_iff_inWindow _).2 hwindow
    refine ⟨fun w rest hw => ?_, fun hnil => ⟨loByte (Config.envAnswer s.draws), ?_⟩, State.writeByte_device hdev b⟩
    · rw [State.memRead8, State.readByte_device hdev, State.nextAnswer_eq_of_cons hw]
      rfl
    · rw [State.memRead8, State.readByte_device hdev, State.nextAnswer_of_nil hnil]
      rfl
  · exact ⟨State.memRead16_of_plain h seg off, byteAddr_one seg, byteAddr_one_wrap seg off, byteAddr_one_linear seg off,
      State.memRead16_memWrite16 h seg off v, State.memRead8_memWrite16 h seg off v,
      fun hoff => State.memRead8_memWrite16_next h seg hoff v⟩

end Sys2Proof.Machine
end
